-- ==== Sys2Proof/Word.lean ====
section
/-! DEFINITION. The word types of the block: a byte of the frame buffer's byte view, a timing word, a value of the combined
set/clear register, and a port's name. -/

namespace Sys2Proof

/-- One byte: a channel intensity, a channel symbol (`00_scope.md` R6, CH_BITS), or one byte of the frame buffer's byte view. -/
abbrev Byte := BitVec 8

/-- One timing word, held in PORT_PINS = 16 bits (`30_encoding.md` R91). With WORD_BITS < 16 the bits from WORD_BITS up are
zero (log entry 4). Also the width of a pin mask and of a port's output latch (`10_state.md` R25, R34). -/
abbrev Word := BitVec 16

/-- One value of the combined set/clear register, PORTREG_BITS = 32 bits (`30_encoding.md` R94). -/
abbrev PortWord := BitVec 32

/-- The name of a port: opaque, no rule computes with it (`10_state.md` R24, decision D23). -/
abbrev PortId := Nat

/-- ZERO, the canonical timing word for logical 1 (`00_scope.md` R6). -/
abbrev zeroWord : Word := 0

end Sys2Proof
end

