-- ==== Sys2Proof/Config.lean ====
section
/-! DEFINITION. The parameters the spec leaves OPEN (`00_scope.md` R6), with the spec's defaults, and the free values: the
allocator's answer and the address behind a fresh handle. -/

namespace Sys2Proof

/-- The OPEN parameters of `00_scope.md` R6. They are an argument of the model: the state carries them and no step writes
them (`00_scope.md` R11, log entry 3). -/
structure Config where
  /-- WORD_BITS: width of one timing word. -/
  wordBits : Nat
  /-- SLACK_WORDS: over-allocated words after FBLEN. -/
  slackWords : Nat
  /-- FB_CAPACITY: words the allocator can ever supply. -/
  fbCapacity : Nat
  /-- P: T_BIT in ticks. -/
  p : Nat
  /-- E: T_EARLY in ticks. -/
  e : Nat
  /-- L: T_LATE in ticks. -/
  l : Nat
  /-- ALLOW_REINIT: whether INIT is admitted from STOPPED. -/
  allowReinit : Bool
  deriving DecidableEq, Repr

/-- The defaults of `00_scope.md` R6. -/
def Config.default : Config where
  wordBits := 16
  slackWords := 0
  fbCapacity := 65535
  p := 90
  e := 28
  l := 58
  allowReinit := false

/-- The constraints the spec puts on the parameters: 1 <= WORD_BITS <= PORT_PINS (`00_scope.md` R6), 0 < E < L < P
(`41_sequencer.md` R150), FB_CAPACITY < 2^POS_BITS (`10_state.md` R29). A configuration that violates them "is not this
hardware". -/
def Config.wf (c : Config) : Bool :=
  decide (1 ≤ c.wordBits) && decide (c.wordBits ≤ 16) && decide (0 < c.e) && decide (c.e < c.l) && decide (c.l < c.p) &&
    decide (c.fbCapacity < 2 ^ 16)

/-- FREE VALUE (`42_lifecycle.md` R172, U6): whether the allocator can supply so many words at its n-th call. No body: a
claim holds whichever it answers. -/
opaque Config.allocOk : (draw : Nat) → (words : Nat) → Bool

/-- FREE VALUE (`10_state.md` R28): the address behind the handle of the n-th allocation. Opaque; no rule computes with it. -/
opaque Config.freshBase : (draw : Nat) → Nat

end Sys2Proof
end

