-- ==== Sys2Proof/Syntax.lean ====
section
/-! DEFINITION. The instructions (one constructor per row of `opcode_table.json`) and the four formats they come in
(`30_encoding.md` section 1). -/

namespace Sys2Proof

/-- The rows of `opcode_table.json`, in the table's order. -/
inductive Instr where
  /-- T1, the timing word ZERO (R144). -/
  | t1
  /-- T0, the timing word MARK, with its value (R145). -/
  | t0 (m : Word)
  /-- SYM, the channel symbol `0000qqqq` (R92). -/
  | sym (q : BitVec 4)
  /-- INIT ledCount, port, pinMask; `ledCount` is signed (R174). -/
  | init (ledCount : BitVec 32) (port : PortId) (pinMask : Word)
  /-- STOP (R178). -/
  | stop
  /-- START (R180). -/
  | start
  /-- ENC8 v (R121). -/
  | enc8 (v : Byte)
  /-- ENCRGB i, (r, g, b) (R123). -/
  | encrgb (i : BitVec 16) (r g b : Byte)
  /-- FBWR i, w (R190). -/
  | fbwr (i : BitVec 16) (w : Word)
  /-- FBRD i (R191). -/
  | fbrd (i : BitVec 16)
  /-- SEQ.SET, the event of the cadence source (R142). -/
  | seqSet
  /-- SEQ.EARLY, the event of the early-reset source (R143). -/
  | seqEarly
  /-- SEQ.LATE, the event of the late-reset source (R147). -/
  | seqLate
  deriving DecidableEq, Repr

/-- Format OP (R96): a selector of 4 bits and the operands of the operation "as separate fields (not packed into a word)". A
field that the selected operation does not have is not looked at (log entry 22). -/
structure OpForm where
  op : BitVec 4
  ledCount : BitVec 32 := 0
  port : PortId := 0
  pinMask : Word := 0
  v : Byte := 0
  i : BitVec 16 := 0
  r : Byte := 0
  g : Byte := 0
  b : Byte := 0
  w : Word := 0
  deriving DecidableEq, Repr

/-- The four formats in which an instruction is written: a fetched timing word (TW, R91), a channel symbol (SYM, R92), a HOST
operation (OP, R96), a sequencer event's source id (EVT, R97). -/
inductive Encoded where
  | tw (w : Word)
  | sym (s : Byte)
  | op (f : OpForm)
  | evt (src : BitVec 2)
  deriving DecidableEq, Repr

/-- The names of the formats. -/
inductive Format where
  | TW | SYM | OP | EVT
  deriving DecidableEq, Repr

end Sys2Proof
end

