-- ==== Sys2Proof/WellFormed.lean ====
section
/-! DEFINITION. Which instructions can be written at all, at a given WORD_BITS. -/

namespace Sys2Proof

/-- `w` fits a timing word of `wordBits` bits (`30_encoding.md` R91). -/
def fitsWord (wordBits : Nat) (w : Word) : Bool := decide (w.toNat < 2 ^ wordBits)

/-- An instruction whose operands the formats admit: the marker of T0 is non-zero and fits a timing word (R91, R145), the word
of FBWR fits one (R96). Every other operand has exactly its format's width. -/
def Instr.wellFormed (wordBits : Nat) : Instr → Bool
  | .t1 => true
  | .t0 m => m != 0 && fitsWord wordBits m
  | .sym _ => true
  | .init _ _ _ => true
  | .stop => true
  | .start => true
  | .enc8 _ => true
  | .encrgb _ _ _ _ => true
  | .fbwr _ w => fitsWord wordBits w
  | .fbrd _ => true
  | .seqSet => true
  | .seqEarly => true
  | .seqLate => true

end Sys2Proof
end

