-- ==== Sys2Proof/Decode.lean ====
section
/-! DEFINITION. The decoder, total on every value of the four formats and rejecting by name (`30_encoding.md` R103 to R106),
the encoder (R91, R92, R96, R97), and the host's view of both on the numbers of `opcode_table.json`. -/

namespace Sys2Proof

/-- Why a value of a format is no instruction. -/
inductive DecodeError where
  /-- A timing word that is neither ZERO nor MARK (R105). -/
  | malformedWord (w : Word)
  /-- A symbol whose upper four bits are not zero: not one the encoder produces (R92). -/
  | notASymbol (s : Byte)
  /-- A reserved operation selector, 0x0 or 0x8 to 0xF (R106 a). -/
  | reservedSelector (op : BitVec 4)
  /-- Event source id 3, never produced (R106 b). -/
  | reservedSource
  deriving DecidableEq, Repr

/-- The decode of a fetched timing word, given MARK (R103): ZERO is tested first. -/
def decodeWord (mark w : Word) : Except DecodeError Instr :=
  if w = zeroWord then .ok .t1
  else if w = mark then .ok (.t0 w)
  else .error (.malformedWord w)

/-- The decode of a channel symbol (R92). -/
def decodeSymbol (s : Byte) : Except DecodeError Instr :=
  if s.extractLsb' 4 4 = 0 then .ok (.sym (s.extractLsb' 0 4)) else .error (.notASymbol s)

/-- The decode of a HOST operation by its selector (R96, R104). -/
def decodeOp (f : OpForm) : Except DecodeError Instr :=
  if f.op = 0x1 then .ok (.init f.ledCount f.port f.pinMask)
  else if f.op = 0x2 then .ok .stop
  else if f.op = 0x3 then .ok .start
  else if f.op = 0x4 then .ok (.enc8 f.v)
  else if f.op = 0x5 then .ok (.encrgb f.i f.r f.g f.b)
  else if f.op = 0x6 then .ok (.fbwr f.i f.w)
  else if f.op = 0x7 then .ok (.fbrd f.i)
  else .error (.reservedSelector f.op)

/-- The decode of an event by its source id (R97, R104). -/
def decodeEvent (src : BitVec 2) : Except DecodeError Instr :=
  if src = 0 then .ok .seqSet
  else if src = 1 then .ok .seqEarly
  else if src = 2 then .ok .seqLate
  else .error .reservedSource

/-- The decoder. How a timing word reads depends on MARK, which INIT derives from the pin mask (R103). -/
def decode (mark : Word) : Encoded → Except DecodeError Instr
  | .tw w => decodeWord mark w
  | .sym s => decodeSymbol s
  | .op f => decodeOp f
  | .evt src => decodeEvent src

/-- The encoder: the format's value that stands for an instruction. -/
def encode : Instr → Encoded
  | .t1 => .tw 0
  | .t0 m => .tw m
  | .sym q => .sym (0#4 ++ q)
  | .init n port mask => .op { op := 0x1, ledCount := n, port := port, pinMask := mask }
  | .stop => .op { op := 0x2 }
  | .start => .op { op := 0x3 }
  | .enc8 v => .op { op := 0x4, v := v }
  | .encrgb i r g b => .op { op := 0x5, i := i, r := r, g := g, b := b }
  | .fbwr i w => .op { op := 0x6, i := i, w := w }
  | .fbrd i => .op { op := 0x7, i := i }
  | .seqSet => .evt 0
  | .seqEarly => .evt 1
  | .seqLate => .evt 2

/-- Which format an encoded value is in. -/
def Encoded.format : Encoded → Format
  | .tw _ => .TW
  | .sym _ => .SYM
  | .op _ => .OP
  | .evt _ => .EVT

/-- The "format" column of `opcode_table.json`. -/
def Instr.format : Instr → Format
  | .t1 | .t0 _ => .TW
  | .sym _ => .SYM
  | .init _ _ _ | .stop | .start | .enc8 _ | .encrgb _ _ _ _ | .fbwr _ _ | .fbrd _ => .OP
  | .seqSet | .seqEarly | .seqLate => .EVT

/-- The value a number of `opcode_table.json` stands for, by its width in bits. The table numbers four formats whose patterns
overlap, and the number alone does not say which is meant. Two bits are an event, four a selector, sixteen a timing word. Of
the one-byte numbers, 1 to 7 are read as operation selectors (all operands zero), 0 as the event id of SEQ.SET, 8 to 15 as
symbols; the other readings of these bytes are reached through their own formats (log entry 16). -/
def encodedOfTable (nbits w : Nat) : Option Encoded :=
  if nbits = 16 ∧ w < 2 ^ 16 then some (.tw (BitVec.ofNat 16 w))
  else if nbits = 8 ∧ w = 0 then some (.evt 0)
  else if nbits = 8 ∧ w < 8 then some (.op { op := BitVec.ofNat 4 w })
  else if nbits = 8 ∧ w < 2 ^ 8 then some (.sym (BitVec.ofNat 8 w))
  else if nbits = 4 ∧ w < 2 ^ 4 then some (.op { op := BitVec.ofNat 4 w })
  else if nbits = 2 ∧ w < 2 ^ 2 then some (.evt (BitVec.ofNat 2 w))
  else none

/-- The instruction the decoder reads from a number of `opcode_table.json`. A non-zero timing word is read as T0, that is, in
a configuration whose MARK it is (the table's own note: "must equal MARK"). -/
def decodeTableWord (nbits w : Nat) : Option Instr :=
  match encodedOfTable nbits w with
  | none => none
  | some x =>
    match decode (BitVec.ofNat 16 w) x with
    | .ok i => some i
    | .error _ => none

end Sys2Proof
end

