-- ==== Sys2Proof/Machine/State.lean ====
section
/-! DEFINITION. The state of the block (`10_state.md`), the inputs of the outside world, the faults and refusals of a step, and
the state after reset. -/

namespace Sys2Proof.Machine

/-- STATE, the lifecycle state (`10_state.md` R21). -/
inductive Lifecycle where
  | uninit
  | running
  | stopped
  | halted
  deriving DecidableEq, Repr

/-- The frame buffer's bytes, by byte offset from the buffer's base (`20_memory.md` R67): addresses strictly rising, no entry
equal to zero, which is what an unlisted byte reads as (INIT zero-fills the buffer, R172). -/
abbrev Memory := List Host.Cell

/-- The output latches, by port: ports strictly rising, no entry equal to zero, which is what an unlisted port's latch holds. -/
abbrev Latches := List (PortId × Word)

/-- FBBASE, the opaque handle of a frame buffer (`10_state.md` R28): which allocation it came from, which makes it fresh, and
the address behind it, a free value (log entry 6). -/
structure Handle where
  serial : Nat
  base : Nat
  deriving DecidableEq, Repr

/-- A fault of the spec with its recorded information (`60_exceptions.md` R211). MalformedWord has two constructors, because
what follows it depends on who raised it (R216 c, d). -/
inductive Raise where
  /-- InvalidGeometry: the ledCount given (R212). -/
  | invalidGeometry (ledCount : BitVec 32)
  /-- AllocFail: the number of words asked for (R213). -/
  | allocFail (words : Nat)
  /-- FbIndexOutOfRange: the word index (R62). -/
  | fbIndexOutOfRange (index : Nat)
  /-- MalformedWord raised by FBWR at the write: the index and the word (R190). -/
  | malformedWrite (index : Nat) (w : Word)
  /-- MalformedWord raised by SEQ.EARLY at the fetch: the index and the word (R143). -/
  | malformedFetch (index : Nat) (w : Word)
  deriving DecidableEq, Repr

/-- What a HOST operation returns (`30_encoding.md` R96, column "result"). -/
inductive Result where
  | none
  /-- INIT's handle. -/
  | handle (h : Handle)
  /-- The eight words of ENC8, the first transmitted first. -/
  | words (ws : List Word)
  /-- The word FBRD read. -/
  | word (w : Word)
  deriving DecidableEq, Repr

/-- One entry of the schedule: what happens next, and who does it (`20_memory.md` R72, log entry 8). -/
inductive Input where
  /-- The counter clock ticks once (`41_sequencer.md` R158). -/
  | tick
  /-- The HOST issues an operation, and nothing falls inside it. -/
  | op (f : OpForm)
  /-- The HOST begins an operation whose single-word writes are made one by one (`40_encoder.md` R124). -/
  | split (f : OpForm)
  /-- The HOST makes the next single-word write of the operation it has begun. -/
  | write
  /-- Whoever else uses a port writes its latch, but not the pins the block drives (`10_state.md` R34). -/
  | pins (port : PortId) (v : Word)
  deriving DecidableEq, Repr

/-- Why the machine stops. The spec's own faults are not here: they are taken (`60_exceptions.md` R216), a next state. -/
inductive Fault where
  /-- An access to a frame-buffer word that does not exist: no buffer, or an index at or above FBLEN (`20_memory.md` R62,
  R64). Raised by ENCRGB, FBWR, FBRD and SEQ.EARLY only in states that no run reaches, where POS or LEDCOUNT and FBLEN do not
  agree with the buffer. Safe: the machine stops and no value is invented. -/
  | noSuchWord (index : Nat)
  deriving DecidableEq, Repr

/-- Why a step has no meaning: the spec's `refuse(reason)` (`00_scope.md` R9, `93_implementation_defined.md`). All are safe: a
run containing one supports no claim. -/
inductive Refusal where
  /-- An instruction without a meaning in this model. Raised by an arm of `exec` only; safe. -/
  | notModelled (mnemonic : String)
  /-- ENC8, SYM, ENCRGB, FBWR, FBRD in UNINIT or HALTED (`42_lifecycle.md` R170). Safe. -/
  | notConfigured
  /-- INIT outside UNINIT, but for STOPPED under ALLOW_REINIT (R170, R179). Safe. -/
  | initNotAdmitted
  /-- INIT with pinMask zero or wider than a timing word (R171 b). Safe. -/
  | badPinMask
  /-- INIT under parameters that are "not this hardware" (`41_sequencer.md` R150, log entry 3). Safe. -/
  | badConfiguration
  /-- STOP outside RUNNING (R178). Safe. -/
  | stopNotAdmitted
  /-- START outside STOPPED (R180). Safe. -/
  | startNotAdmitted
  /-- A sequencer event, or the execution of a timing word, when the counters do not produce it ("Enabled when", R142, R143,
  R147; log entry 13). Raised by SEQ.SET, SEQ.EARLY, SEQ.LATE, T1, T0, never by a tick of a reachable state. Safe. -/
  | eventNotEnabled
  /-- A HOST operation that does not decode: a reserved selector (`30_encoding.md` R106 a). Raised by the step. Safe. -/
  | undecodable (e : DecodeError)
  deriving DecidableEq, Repr

/-- The state of the block: the tuple of `10_state.md` R20, the parameters, and the model's own fields. Plain data. -/
structure State where
  /-- STATE (R21). -/
  state : Lifecycle
  /-- FAULT, sticky, by the codes of `60_exceptions.md` R211 (R22). -/
  fault : BitVec 3
  /-- LEDCOUNT (R23). -/
  ledCount : BitVec 16
  /-- PORTSEL (R24). -/
  portSel : PortId
  /-- PINMASK (R25). -/
  pinMask : Word
  /-- SETW (R26). -/
  setW : PortWord
  /-- CLRW (R26). -/
  clrW : PortWord
  /-- MARK (R27). -/
  mark : Word
  /-- FBBASE (R28). -/
  fbBase : Handle
  /-- FBLEN (R28). -/
  fbLen : BitVec 16
  /-- POS, the block's program counter (R29). -/
  pos : BitVec 16
  /-- EN: the cadence counter is running (R31). -/
  en : Bool
  /-- ARM_E: the early-reset source is armed (R31). -/
  armE : Bool
  /-- ARM_L: the late-reset source is armed (R31). -/
  armL : Bool
  /-- CNT_C, in 0 .. P-1 (R30). -/
  cntC : Nat
  /-- CNT_E, in 0 .. P-1 (R30). -/
  cntE : Nat
  /-- CNT_L, in 0 .. P-1 (R30). -/
  cntL : Nat
  /-- FB (R33); `none` where no buffer exists. -/
  fb : Option Memory
  /-- OUT, one latch per port (R24, R34). -/
  out : Latches
  /-- The parameters of `00_scope.md` R6; no step writes them. -/
  cfg : Config
  /-- The model's own: what the last HOST operation returned (log entry 10). -/
  result : Result
  /-- The model's own: the last fault raised, with its recorded information (R211, log entry 11). -/
  raised : Option Raise
  /-- The model's own: the values given to PortWrite, newest first (`41_sequencer.md` R156, log entry 11). -/
  portTrace : List PortWord
  /-- The model's own: the schedule of inputs not yet taken (log entry 8). -/
  inbox : List Input
  /-- The model's own: the single-word writes of an ENCRGB in progress not yet made (`40_encoder.md` R124, log entry 9). -/
  pendingWrites : List (Nat × Word)
  /-- The model's own: how many free values INIT has drawn (log entry 7). -/
  draws : Nat
  /-- The model's own: the allocator's answers to come, an input (log entry 7). -/
  allocAnswers : List Bool
  deriving DecidableEq, Repr

/-- The state after reset (`10_state.md` R36, `70_reset_and_hazards.md` R241): STATE = UNINIT, FAULT = 0, EN = ARM_E = ARM_L =
0, no frame buffer. The spec leaves every other register and OUT unspecified; they are zero here (DESIGN CHOICE, unsafe, log
entry 1). -/
def State.reset : State where
  state := .uninit
  fault := 0
  ledCount := 0
  portSel := 0
  pinMask := 0
  setW := 0
  clrW := 0
  mark := 0
  fbBase := { serial := 0, base := 0 }
  fbLen := 0
  pos := 0
  en := false
  armE := false
  armL := false
  cntC := 0
  cntE := 0
  cntL := 0
  fb := none
  out := []
  cfg := Config.default
  result := .none
  raised := none
  portTrace := []
  inbox := []
  pendingWrites := []
  draws := 0
  allocAnswers := []

end Sys2Proof.Machine
end

