-- ==== Sys2Proof/Machine/Flags.lean ====
section
/-! DEFINITION. The status bits. The block has no arithmetic flags (`10_state.md` R32); what it has is STATE's encoding and
FAULT, which keeps the code of the first fault. -/

namespace Sys2Proof.Machine

/-- `10_state.md` R21: the encoding of STATE. -/
def Lifecycle.code : Lifecycle → BitVec 2
  | .uninit => 0
  | .running => 1
  | .stopped => 2
  | .halted => 3

/-- `60_exceptions.md` R211: the code of a fault. -/
def Raise.code : Raise → BitVec 3
  | .invalidGeometry _ => 1
  | .allocFail _ => 2
  | .fbIndexOutOfRange _ => 3
  | .malformedWrite _ _ => 4
  | .malformedFetch _ _ => 4

/-- `60_exceptions.md` R216 (a): FAULT keeps the first code. -/
def stickyFault (old code : BitVec 3) : BitVec 3 := if old = 0 then code else old

/-- `60_exceptions.md` R216 (b), (c): which faults end in HALTED. -/
def Raise.halts : Raise → Bool
  | .invalidGeometry _ => true
  | .allocFail _ => true
  | .fbIndexOutOfRange _ => false
  | .malformedWrite _ _ => false
  | .malformedFetch _ _ => true

/-- `60_exceptions.md` R216 (c): which fault ends playback, clearing EN, ARM_E and ARM_L. -/
def Raise.endsPlayback : Raise → Bool
  | .invalidGeometry _ => false
  | .allocFail _ => false
  | .fbIndexOutOfRange _ => false
  | .malformedWrite _ _ => false
  | .malformedFetch _ _ => true

/-- `42_lifecycle.md` R170: the states in which the block is configured, so that MARK and the frame buffer are defined. -/
def Lifecycle.configured : Lifecycle → Bool
  | .uninit => false
  | .running => true
  | .stopped => true
  | .halted => false

end Sys2Proof.Machine
end

