-- ==== Sys2Proof/Machine/Operands.lean ====
section
/-! DEFINITION. Field and operand assembly (`30_encoding.md` section 2): the encoder's stages, the index of a word, the constant
words derived from the pin mask, the early-reset payload. -/

namespace Sys2Proof.Machine

/-- R98: the quantised nibble, q = v / 16 = v[7:4]; the low nibble is discarded. -/
def quantise (v : Byte) : BitVec 4 := v.extractLsb' 4 4

/-- R99: the symbol, the nibble extended by four zero bits. -/
def symbolOf (q : BitVec 4) : Byte := 0#4 ++ q

/-- R100: the word for one bit. A 1 bit is the zero word, a 0 bit the marker. -/
def bitWord (mark : Word) (bit : Bool) : Word := if bit then zeroWord else mark

/-- R100: the eight words of a symbol, most significant bit first. -/
def symbolWords (mark : Word) (s : Byte) : List Word :=
  [bitWord mark (s.getLsbD 7), bitWord mark (s.getLsbD 6), bitWord mark (s.getLsbD 5), bitWord mark (s.getLsbD 4),
   bitWord mark (s.getLsbD 3), bitWord mark (s.getLsbD 2), bitWord mark (s.getLsbD 1), bitWord mark (s.getLsbD 0)]

/-- `40_encoder.md` R121: the eight words of a channel intensity. -/
def channelWords (mark : Word) (v : Byte) : List Word := symbolWords mark (symbolOf (quantise v))

/-- R93, R123: the 24 words of a colour's block, Green, then Red, then Blue. -/
def blockWords (mark : Word) (r g b : Byte) : List Word :=
  channelWords mark g ++ channelWords mark r ++ channelWords mark b

/-- Single-word writes of consecutive words from an index up. -/
def consecutive : Nat → List Word → List (Nat × Word)
  | _, [] => []
  | k, w :: ws => (k, w) :: consecutive (k + 1) ws

/-- R123, R124: the 24 single-word writes of ENCRGB i, in ascending index order. -/
def blockWrites (mark : Word) (i : Nat) (r g b : Byte) : List (Nat × Word) :=
  consecutive (24 * i) (blockWords mark r g b)

/-- R125: DEC8, the checking function, on a sequence of words, the first being the most significant bit. R125 and
`90_conflicts.md` C2 define it on canonical words only; that a malformed word gives bit 1 here is the model's (DESIGN CHOICE, log
entry 27), and no statement rests on it. -/
def dec8 (mark : Word) (ws : List Word) : Byte :=
  ws.foldl (fun s w => (s <<< 1) ||| (if w = mark then 0 else 1)) 0

/-- R102: the index of the word of bit b of channel c (0 Green, 1 Red, 2 Blue) of LED i. -/
def wordIndex (i c b : Nat) : Nat := 24 * i + 8 * c + (7 - b)

/-- R102: the LED of an index. -/
def ledOfIndex (j : Nat) : Nat := j / 24

/-- R102: the channel of an index. -/
def channelOfIndex (j : Nat) : Nat := (j % 24) / 8

/-- R102: the bit of an index. -/
def bitOfIndex (j : Nat) : Nat := 7 - j % 8

/-- R101: SETW, the masked pins in the set half. -/
def setWordOf (mask : Word) : PortWord := mask.setWidth 32

/-- R101: CLRW, the masked pins in the clear half. -/
def clearWordOf (mask : Word) : PortWord := mask.setWidth 32 <<< 16

/-- R101: MARK, the mask's bits WORD_BITS-1 .. 0. -/
def markOf (wordBits : Nat) (mask : Word) : Word := BitVec.ofNat 16 (mask.toNat % 2 ^ wordBits)

/-- `20_memory.md` R71: the early-reset payload, the timing word in the clear half. -/
def earlyPayload (w : Word) : PortWord := w.setWidth 32 <<< 16

/-- R101: FBLEN, 24 words per LED. -/
def frameLength (ledCount : Nat) : Nat := ledCount * 24

/-- `42_lifecycle.md` R176: the early-reset counter's pre-load, PH_E = P - E. -/
def phaseE (c : Config) : Nat := c.p - c.e

/-- `42_lifecycle.md` R176: the late-reset counter's pre-load, PH_L = P - L. -/
def phaseL (c : Config) : Nat := c.p - c.l

end Sys2Proof.Machine
end

