-- ==== Sys2Proof/Machine/Ops.lean ====
section
/-! DEFINITION. The shared operations: sparse storage, the frame buffer (`20_memory.md` R64 to R67), the port register (R70),
raising a fault (`60_exceptions.md` R216), the start sequence (`42_lifecycle.md` R176), the read position and the counters
(`41_sequencer.md` R146, R158), the allocator's draw (R172). There is no return from a fault: R217. -/

namespace Sys2Proof.Machine

/-- What a step of the machine answers. -/
abbrev Answer := Host.Outcome State Fault Refusal

/-- Goes on with `k` from a next state; a stop stays a stop. -/
def andThen (r : Answer) (k : State → Answer) : Answer :=
  match r with
  | .next s => k s
  | .fault e => .fault e
  | .refused e => .refused e

/-! ### Sparse storage: a list of key and value, keys strictly rising, no value zero; an unlisted key holds zero -/

/-- The value at a key. -/
def sparseGet {w : Nat} : List (Nat × BitVec w) → Nat → BitVec w
  | [], _ => 0
  | (a, v) :: rest, k => if a = k then v else sparseGet rest k

/-- The list without a key. -/
def sparseErase {w : Nat} : List (Nat × BitVec w) → Nat → List (Nat × BitVec w)
  | [], _ => []
  | (a, v) :: rest, k => if a = k then sparseErase rest k else (a, v) :: sparseErase rest k

/-- The list with an entry put before the first greater key. -/
def sparseInsert {w : Nat} : List (Nat × BitVec w) → Nat → BitVec w → List (Nat × BitVec w)
  | [], k, v => [(k, v)]
  | (a, x) :: rest, k, v => if k < a then (k, v) :: (a, x) :: rest else (a, x) :: sparseInsert rest k v

/-- Writes a key; writing zero removes the entry. -/
def sparseSet {w : Nat} (m : List (Nat × BitVec w)) (k : Nat) (v : BitVec w) : List (Nat × BitVec w) :=
  if v = 0 then sparseErase m k else sparseInsert (sparseErase m k) k v

/-- Keys strictly rising from `lo` up, no value zero. -/
def sparseWfFrom {w : Nat} : Nat → List (Nat × BitVec w) → Bool
  | _, [] => true
  | lo, (a, v) :: rest => decide (lo ≤ a) && v != 0 && sparseWfFrom (a + 1) rest

/-- The canonical form. -/
def sparseWf {w : Nat} (m : List (Nat × BitVec w)) : Bool := sparseWfFrom 0 m

/-- The canonical form of the frame buffer's bytes. -/
def Memory.wf (m : Memory) : Bool := sparseWf m

/-! ### The frame buffer -/

/-- One byte of the buffer, by its offset from the base. -/
def Memory.readByte (m : Memory) (a : Nat) : Byte := sparseGet m a

/-- The buffer with one byte replaced. -/
def Memory.writeByte (m : Memory) (a : Nat) (v : Byte) : Memory := sparseSet m a v

/-- `20_memory.md` R67: bytes per timing word, WORD_BITS / 8 (rounded up where WORD_BITS is no multiple of 8, log entry 5). -/
def wordStride (c : Config) : Nat := (c.wordBits + 7) / 8

/-- `20_memory.md` R67: the byte offset of word i. -/
def wordAddress (stride i : Nat) : Nat := i * stride

/-- The word at index i, least significant byte at the lowest address (R67). -/
def Memory.readWord (stride : Nat) (m : Memory) (i : Nat) : Word :=
  if stride = 1 then (m.readByte (wordAddress stride i)).setWidth 16
  else m.readByte (wordAddress stride i + 1) ++ m.readByte (wordAddress stride i)

/-- The buffer with the word at index i replaced, whole (R65). -/
def Memory.writeWord (stride : Nat) (m : Memory) (i : Nat) (w : Word) : Memory :=
  if stride = 1 then m.writeByte (wordAddress stride i) (w.setWidth 8)
  else (m.writeByte (wordAddress stride i) (w.extractLsb' 0 8)).writeByte (wordAddress stride i + 1) (w.extractLsb' 8 8)

/-- `MemRead(FB, i, 1)` (R64): the whole word, where index i exists. -/
def memRead (s : State) (i : Nat) : Option Word :=
  match s.fb with
  | none => none
  | some m => if i < s.fbLen.toNat then some (m.readWord (wordStride s.cfg) i) else none

/-- `MemWrite(FB, i, 1, w)` (R65): replaces the whole word, where index i exists. -/
def memWrite (i : Nat) (w : Word) (s : State) : Answer :=
  match s.fb with
  | none => .fault (.noSuchWord i)
  | some m =>
    if i < s.fbLen.toNat then .next { s with fb := some (m.writeWord (wordStride s.cfg) i w) }
    else .fault (.noSuchWord i)

/-- Single-word writes in order (`40_encoder.md` R124). -/
def memWriteAll : List (Nat × Word) → State → Answer
  | [], s => .next s
  | (i, w) :: rest, s => andThen (memWrite i w s) (memWriteAll rest)

/-! ### The port -/

/-- OUT of a port (`10_state.md` R24). -/
def latch (s : State) (port : PortId) : Word := sparseGet s.out port

/-- `20_memory.md` R70: what a port write makes of a latch. -/
def portEffect (v : PortWord) (old : Word) : Word := (old &&& ~~~(v.extractLsb' 16 16)) ||| v.extractLsb' 0 16

/-- `PortWrite(v)` (R70): acts on the latch of the selected port. The value is recorded in the trace (`41_sequencer.md` R156). -/
def portWrite (v : PortWord) (s : State) : State :=
  { s with out := sparseSet s.out s.portSel (portEffect v (latch s s.portSel)), portTrace := v :: s.portTrace }

/-- The pins of a port that the block drives now: the masked pins of the selected port while the sequencer runs
(`10_state.md` R34, `60_exceptions.md` R222). After STOP the line level is software's to arrange (`70_reset_and_hazards.md`
R256). -/
def drivenPins (s : State) (port : PortId) : Word :=
  if s.state = .running ∧ port = s.portSel then s.pinMask else 0

/-- Whoever else uses a port writes its latch at the pins the block does not drive (`10_state.md` R34). -/
def othersWrite (port : PortId) (v : Word) (s : State) : State :=
  { s with out := sparseSet s.out port ((latch s port &&& drivenPins s port) ||| (v &&& ~~~(drivenPins s port))) }

/-! ### Raising a fault -/

/-- `60_exceptions.md` R216: what a fault does, the one entry of every fault. FAULT keeps the first code; the fatal bring-up
faults and a malformed word at the fetch go to HALTED; the latter also ends playback. Nothing else changes. -/
def takeFault (r : Raise) (s : State) : State :=
  { s with
    fault := stickyFault s.fault r.code
    state := if r.halts then .halted else s.state
    en := if r.endsPlayback then false else s.en
    armE := if r.endsPlayback then false else s.armE
    armL := if r.endsPlayback then false else s.armL
    raised := some r }

/-- The state with an operation's result handed to the HOST. -/
def returning (r : Result) (s : State) : State := { s with result := r }

/-! ### The sequencer -/

/-- `42_lifecycle.md` R176: the start sequence, S1 to S5. No tick falls inside it. -/
def startSequence (s : State) : State :=
  { s with
    pos := 0
    cntE := phaseE s.cfg
    armE := true
    cntL := phaseL s.cfg
    armL := true
    cntC := 0
    en := true }

/-- `41_sequencer.md` R146: POS <- (POS + 1) mod FBLEN. -/
def advancePos (s : State) : State :=
  { s with pos := BitVec.ofNat 16 ((s.pos.toNat + 1) % s.fbLen.toNat) }

/-- `41_sequencer.md` R158, last three lines: the counters count up modulo P while EN = 1. -/
def advanceCounters (s : State) : State :=
  if s.en then
    { s with
      cntC := (s.cntC + 1) % s.cfg.p
      cntE := if s.armE then (s.cntE + 1) % s.cfg.p else s.cntE
      cntL := if s.armL then (s.cntL + 1) % s.cfg.p else s.cntL }
  else s

/-- It is the cadence source's turn (`41_sequencer.md` R142, R148, R158). -/
def setTurn (s : State) : Bool := decide (s.state = .running) && s.en && decide (s.cntC = 0)

/-- It is the early-reset source's turn (R143, R148, R158). -/
def earlyTurn (s : State) : Bool := decide (s.state = .running) && s.en && s.armE && decide (s.cntE = 0)

/-- It is the late-reset source's turn (R147, R148, R158). -/
def lateTurn (s : State) : Bool := decide (s.state = .running) && s.en && s.armL && decide (s.cntL = 0)

/-! ### The allocator -/

/-- The allocator's answer to a request (`42_lifecycle.md` R172): the next one the outside gives, or the free value
`Config.allocOk`; forced to no above FB_CAPACITY. -/
def allocAnswer (words : Nat) (s : State) : Bool :=
  (match s.allocAnswers with
    | [] => Config.allocOk s.draws words
    | answer :: _ => answer) && decide (words ≤ s.cfg.fbCapacity)

/-- One draw has been made. -/
def afterDraw (s : State) : State :=
  { s with draws := s.draws + 1, allocAnswers := s.allocAnswers.tail }

/-- A fresh handle (`10_state.md` R28): the serial makes it differ from every earlier one, the address is free. -/
def freshHandle (s : State) : Handle := { serial := s.draws + 1, base := Config.freshBase s.draws }

end Sys2Proof.Machine
end

