-- ==== Sys2Proof/Machine/Encoder.lean ====
section
/-! DEFINITION. The colour/bit encoder (`40_encoder.md`): SYM, ENC8, ENCRGB. -/

namespace Sys2Proof.Machine

/-- SYM q (`30_encoding.md` R92, R99, R100): the last stage of the encoder, from the symbol `0000qqqq` to its eight words.
Defined where MARK is, like ENC8 (log entry 14). -/
def execSym (q : BitVec 4) (s : State) : Answer :=
  if s.state.configured then .next (returning (.words (symbolWords s.mark (symbolOf q))) s)
  else .refused .notConfigured

/-- ENC8 v (R121): eight words, no state written. -/
def execEnc8 (v : Byte) (s : State) : Answer :=
  if s.state.configured then .next (returning (.words (channelWords s.mark v)) s)
  else .refused .notConfigured

/-- The tests of ENCRGB (R123), before any word is written. -/
def blockCommand (i : BitVec 16) (act : State → Answer) (s : State) : Answer :=
  if !s.state.configured then .refused .notConfigured
  else if s.ledCount.toNat ≤ i.toNat then .next (returning .none (takeFault (.fbIndexOutOfRange (24 * i.toNat)) s))
  else act (returning .none s)

/-- ENCRGB i, (r, g, b) (R123): the 24 words of LED i. -/
def execEncrgb (i : BitVec 16) (r g b : Byte) (s : State) : Answer :=
  blockCommand i (memWriteAll (blockWrites s.mark i.toNat r g b)) s

/-- ENCRGB begun (R124): its 24 single-word writes are still to be made, one at a time. -/
def beginEncrgb (i : BitVec 16) (r g b : Byte) (s : State) : Answer :=
  blockCommand i (fun s' => .next { s' with pendingWrites := blockWrites s.mark i.toNat r g b }) s

end Sys2Proof.Machine
end

