-- ==== Sys2Proof/Machine/FrameBuffer.lean ====
section
/-! DEFINITION. The HOST's raw access to the frame buffer (`43_host_interface.md`): FBWR, FBRD. -/

namespace Sys2Proof.Machine

/-- FBWR i, w (R190): the index is tested before the word (`60_exceptions.md` R214). -/
def execFbwr (i : BitVec 16) (w : Word) (s : State) : Answer :=
  if !s.state.configured then .refused .notConfigured
  else if s.fbLen.toNat ≤ i.toNat then .next (returning .none (takeFault (.fbIndexOutOfRange i.toNat) s))
  else if w ≠ zeroWord ∧ w ≠ s.mark then .next (returning .none (takeFault (.malformedWrite i.toNat w) s))
  else memWrite i.toNat w (returning .none s)

/-- FBRD i (R191): reads one word and changes nothing. -/
def execFbrd (i : BitVec 16) (s : State) : Answer :=
  if !s.state.configured then .refused .notConfigured
  else if s.fbLen.toNat ≤ i.toNat then .next (returning .none (takeFault (.fbIndexOutOfRange i.toNat) s))
  else
    match memRead s i.toNat with
    | none => .fault (.noSuchWord i.toNat)
    | some w => .next (returning (.word w) s)

end Sys2Proof.Machine
end

