-- ==== Sys2Proof/Machine/LifecycleOps.lean ====
section
/-! DEFINITION. The lifecycle operations (`42_lifecycle.md`): INIT, STOP, START. -/

namespace Sys2Proof.Machine

/-- `42_lifecycle.md` R170, R179: INIT is admitted in UNINIT, and in STOPPED under ALLOW_REINIT. -/
def initAdmitted (s : State) : Bool :=
  decide (s.state = .uninit) || (decide (s.state = .stopped) && s.cfg.allowReinit)

/-- R171 (b): a pin mask that a timing word can carry as its marker. -/
def goodPinMask (wordBits : Nat) (mask : Word) : Bool := mask != 0 && fitsWord wordBits mask

/-- R172: the words INIT asks the allocator for. -/
def wordsWanted (c : Config) (ledCount : Nat) : Nat := frameLength ledCount + c.slackWords

/-- R173, R174: the configuration registers and the zeroed buffer of a successful INIT. -/
def configure (ledCount : Nat) (port : PortId) (mask : Word) (h : Handle) (s : State) : State :=
  { s with
    ledCount := BitVec.ofNat 16 ledCount
    fbLen := BitVec.ofNat 16 (frameLength ledCount)
    fbBase := h
    fb := some []
    portSel := port
    pinMask := mask
    setW := setWordOf mask
    clrW := clearWordOf mask
    mark := markOf s.cfg.wordBits mask }

/-- The start sequence and STATE <- RUNNING (R174, R180). -/
def startPlayback (s : State) : State := { startSequence s with state := .running }

/-- INIT ledCount, port, pinMask (R174). -/
def execInit (ledCount : BitVec 32) (port : PortId) (pinMask : Word) (s : State) : Answer :=
  if !s.cfg.wf then .refused .badConfiguration
  else if !initAdmitted s then .refused .initNotAdmitted
  else if !goodPinMask s.cfg.wordBits pinMask then .refused .badPinMask
  else if ledCount.toInt ≤ 0 then .next (returning .none (takeFault (.invalidGeometry ledCount) s))
  else if !allocAnswer (wordsWanted s.cfg ledCount.toNat) s then
    .next (returning .none (takeFault (.allocFail (wordsWanted s.cfg ledCount.toNat)) (afterDraw s)))
  else
    .next (returning (.handle (freshHandle s))
      (startPlayback (configure ledCount.toNat port pinMask (freshHandle s) (afterDraw s))))

/-- STOP (R178): EN, ARM_E, ARM_L <- 0, between any two events; OUT, POS, counters, configuration and FB are kept. -/
def execStop (s : State) : Answer :=
  if s.state = .running then
    .next (returning .none { s with en := false, armE := false, armL := false, state := .stopped })
  else .refused .stopNotAdmitted

/-- START (R180): the start sequence, so playback resumes from FB[0]. -/
def execStart (s : State) : Answer :=
  if s.state = .stopped then .next (returning .none (startPlayback s)) else .refused .startNotAdmitted

end Sys2Proof.Machine
end

