-- ==== Sys2Proof/Machine/Sequencer.lean ====
section
/-! DEFINITION. The waveform sequencer (`41_sequencer.md`): the timing words T1 and T0, the events SEQ.SET, SEQ.EARLY,
SEQ.LATE. -/

namespace Sys2Proof.Machine

/-- T1 (R144), executed at the early-reset source's turn: PortWrite(0). -/
def execT1 (s : State) : Answer :=
  if earlyTurn s then .next (portWrite 0 s) else .refused .eventNotEnabled

/-- T0 m (R145), executed at the early-reset source's turn: every masked pin low. A word that is not MARK is malformed
(`30_encoding.md` R105). -/
def execT0 (m : Word) (s : State) : Answer :=
  if !earlyTurn s then .refused .eventNotEnabled
  else if m = zeroWord ∨ m ≠ s.mark then .next (takeFault (.malformedFetch s.pos.toNat m) s)
  else .next (portWrite (earlyPayload m) s)

/-- SEQ.SET (R142): PortWrite(SETW). -/
def execSeqSet (s : State) : Answer :=
  if setTurn s then .next (portWrite s.setW s) else .refused .eventNotEnabled

/-- SEQ.EARLY (R143): fetch FB[POS], execute the word (R103, R144, R145), advance POS (R146). -/
def execSeqEarly (s : State) : Answer :=
  if !earlyTurn s then .refused .eventNotEnabled
  else
    match memRead s s.pos.toNat with
    | none => .fault (.noSuchWord s.pos.toNat)
    | some w =>
      match decode s.mark (.tw w) with
      | .ok .t1 => andThen (execT1 s) fun s' => .next (advancePos s')
      | .ok (.t0 m) => andThen (execT0 m s) fun s' => .next (advancePos s')
      | _ => .next (takeFault (.malformedFetch s.pos.toNat w) s)

/-- SEQ.LATE (R147): PortWrite(CLRW). -/
def execSeqLate (s : State) : Answer :=
  if lateTurn s then .next (portWrite s.clrW s) else .refused .eventNotEnabled

end Sys2Proof.Machine
end

