-- ==== Sys2Proof/Machine/Dispatch.lean ====
section
/-! DEFINITION. One arm per instruction. -/

namespace Sys2Proof.Machine

def exec (i : Instr) (s : State) : Host.Outcome State Fault Refusal :=
  match i with
  | .t1 => Sys2Proof.Machine.execT1 s
  | .t0 m => Sys2Proof.Machine.execT0 m s
  | .sym q => Sys2Proof.Machine.execSym q s
  | .init n port mask => Sys2Proof.Machine.execInit n port mask s
  | .stop => Sys2Proof.Machine.execStop s
  | .start => Sys2Proof.Machine.execStart s
  | .enc8 v => Sys2Proof.Machine.execEnc8 v s
  | .encrgb k r g b => Sys2Proof.Machine.execEncrgb k r g b s
  | .fbwr k w => Sys2Proof.Machine.execFbwr k w s
  | .fbrd k => Sys2Proof.Machine.execFbrd k s
  | .seqSet => Sys2Proof.Machine.execSeqSet s
  | .seqEarly => Sys2Proof.Machine.execSeqEarly s
  | .seqLate => Sys2Proof.Machine.execSeqLate s

end Sys2Proof.Machine
end

