-- ==== Sys2Proof/Machine/Agents.lean ====
section
/-! DEFINITION. What each agent does in one step: the sequencer's tick (`41_sequencer.md` R158), the HOST's operations and
single-word writes (`40_encoder.md` R124), the schedule that says who moves next (`20_memory.md` R72, log entry 8). -/

namespace Sys2Proof.Machine

/-- One event of a tick, where its condition holds. -/
def eventIf (c : Bool) (event : State → Answer) (s : State) : Answer := if c then event s else .next s

/-- The tick step (R158). A fault at the fetch clears EN, ARM_E and ARM_L, so nothing further happens in its tick. -/
def tick (s : State) : Answer :=
  if s.en then
    andThen (eventIf (decide (s.cntC = 0)) execSeqSet s) fun s1 =>
    andThen (eventIf (s1.armE && decide (s1.cntE = 0)) execSeqEarly s1) fun s2 =>
    andThen (eventIf (s2.armL && decide (s2.cntL = 0)) execSeqLate s2) fun s3 =>
    .next (advanceCounters s3)
  else .next s

/-- The HOST's next single-word write; nothing where none is left. -/
def drainWrite (s : State) : Answer :=
  match s.pendingWrites with
  | [] => .next s
  | (i, w) :: rest => memWrite i w { s with pendingWrites := rest }

/-- The HOST issues an operation: what it decodes to is executed. -/
def issue (f : OpForm) (s : State) : Answer :=
  match decode s.mark (.op f) with
  | .error e => .refused (.undecodable e)
  | .ok i => exec i s

/-- The HOST issues an operation whose single-word writes are made one at a time: only ENCRGB has more than one. -/
def issueSplit (f : OpForm) (s : State) : Answer :=
  match decode s.mark (.op f) with
  | .error e => .refused (.undecodable e)
  | .ok (.encrgb i r g b) => beginEncrgb i r g b s
  | .ok i => exec i s

/-- Takes one input. The HOST is one thread: while an operation's writes are pending, the next operation waits and the HOST
makes the next write instead. -/
def takeInput (x : Input) (rest : List Input) (s : State) : Answer :=
  match x with
  | .tick => tick { s with inbox := rest }
  | .write => drainWrite { s with inbox := rest }
  | .pins port v => .next (othersWrite port v { s with inbox := rest })
  | .op f => if s.pendingWrites = [] then issue f { s with inbox := rest } else drainWrite s
  | .split f => if s.pendingWrites = [] then issueSplit f { s with inbox := rest } else drainWrite s

/-- One step of whoever moves next. With no input left the HOST finishes the operation it has begun, then the clock ticks. -/
def moveNext (s : State) : Answer :=
  match s.inbox with
  | x :: rest => takeInput x rest s
  | [] => if s.pendingWrites = [] then tick s else drainWrite s

/-- The clock ticks `n` times with no HOST step in between. -/
def ticks : Nat → State → Answer
  | 0, s => .next s
  | n + 1, s => andThen (tick s) (ticks n)

/-- `RUN n` of the test scripts (`30_encoding.md` R107): n whole bit periods. -/
def runPeriods (n : Nat) (s : State) : Answer := ticks (n * s.cfg.p) s

/-! ### Placing one instruction where the next step runs it -/

/-- A configuration in which the sequencer can play: the state's own where a word stands at POS, else one LED on the state's
port, with an empty buffer. -/
def playable (s : State) : State :=
  match memRead s s.pos.toNat with
  | some _ => s
  | none => { configure 1 s.portSel 1 s.fbBase s with pos := 0 }

/-- The sequencer runs and its cadence counter reads `c`, the others in phase with it. -/
def atPhase (c : Nat) (s : State) : State :=
  { s with
    state := .running, en := true, armE := true, armL := true
    cntC := c % s.cfg.p
    cntE := (c + phaseE s.cfg) % s.cfg.p
    cntL := (c + phaseL s.cfg) % s.cfg.p }

/-- The next thing that happens is a tick. -/
def tickNext (s : State) : State := { s with inbox := .tick :: s.inbox }

/-- The next thing that happens is a HOST operation. -/
def opNext (f : OpForm) (s : State) : State := { s with inbox := .op f :: s.inbox, pendingWrites := [] }

/-- The buffer with a word at POS, and MARK equal to it where it is not zero. -/
def wordAtPos (w : Word) (s : State) : State :=
  match s.fb with
  | none => s
  | some m =>
    { s with
      fb := some (m.writeWord (wordStride s.cfg) s.pos.toNat w)
      mark := if w = zeroWord then s.mark else w }

/-- The state in which the next step fetches and runs a number of `opcode_table.json` (log entry 16). A symbol comes to be
expanded only through ENC8, in a configured block, so a symbol is placed as the ENC8 that produces it, in such a block. What is
placed for a value that decodes to nothing (`30_encoding.md` R92, R106) is a DESIGN CHOICE, log entry 16: a reserved selector is
issued, for the step to refuse; event id 3 and a byte that is no symbol change nothing. -/
def placeEncoded (x : Encoded) (s : State) : State :=
  match x with
  | .op f => opNext f s
  | .evt src =>
    if src = 3 then s
    else
      let s' := playable s
      tickNext (atPhase (if src = 0 then 0 else if src = 1 then s'.cfg.e else s'.cfg.l) s')
  | .tw w =>
    let s' := playable s
    tickNext (atPhase s'.cfg.e (wordAtPos w s'))
  | .sym b =>
    if b.extractLsb' 4 4 = 0 then
      opNext { op := 0x4, v := b <<< 4 } (if s.state.configured then s else atPhase 0 (playable s))
    else s

end Sys2Proof.Machine
end

