-- ==== Sys2Proof/Machine/Step.lean ====
section
/-! DEFINITION. The step, and the host's way to place one instruction where the next step runs it. -/

namespace Sys2Proof.Machine

/-- One step of the machine: a tick of the sequencer's clock, one HOST operation or single-word write, or an outside write of
pins, as the schedule says. -/
def step (s : State) : Host.Outcome State Fault Refusal := moveNext s

/-- `s` with the instruction that the number `w` of `nbits` bits stands for where the next step fetches it. A number
that stands for no value of a format changes nothing, and what a value that decodes to nothing does is `placeEncoded`'s choice (log
entry 16). -/
def State.withFetchWord (s : State) (nbits w : Nat) : State :=
  match encodedOfTable nbits w with
  | none => s
  | some x => placeEncoded x s

end Sys2Proof.Machine
end

