-- ==== Sys2Proof/Machine/HostPrograms.lean ====
section
/-! DEFINITION. Sequences of operations the HOST executes: the pseudo-operations of `30_encoding.md` R108, and the reference
generators of `43_host_interface.md` R200 to R202. They are the HOST's, not state or operations of the block (log entry 20). -/

namespace Sys2Proof.Machine

/-- A colour, (R, G, B) (`30_encoding.md` R90). -/
structure Color where
  r : Byte
  g : Byte
  b : Byte
  deriving DecidableEq, Repr

/-- ENCRGB of one LED. -/
def paint (i : Nat) (c : Color) : Instr := .encrgb (BitVec.ofNat 16 i) c.r c.g c.b

/-- One ENCRGB for each of `n` LEDs, LED 0 first. -/
def paintAll (n : Nat) (color : Nat → Color) : List Instr := (List.range n).map fun i => paint i (color i)

/-- FILL (r, g, b) (R108). -/
def fill (ledCount : Nat) (c : Color) : List Instr := paintAll ledCount fun _ => c

/-- CLEAR (R108): every word MARK. -/
def clear (ledCount : Nat) : List Instr := fill ledCount { r := 0, g := 0, b := 0 }

/-- The colours of the Test generator (R200): black, red, green, blue, then white. -/
def testColor : Nat → Color
  | 0 => { r := 0, g := 0, b := 0 }
  | 1 => { r := 255, g := 0, b := 0 }
  | 2 => { r := 0, g := 255, b := 0 }
  | 3 => { r := 0, g := 0, b := 255 }
  | _ => { r := 255, g := 255, b := 255 }

/-- TESTPAT (R108, R200); the LEDs that do not exist are omitted. -/
def testPattern (ledCount : Nat) : List Instr := paintAll ledCount testColor

/-- The colour wheel (R202). -/
def wheel (p : Nat) : Color :=
  let p := p % 256
  if p < 85 then { r := BitVec.ofNat 8 (255 - 3 * p), g := BitVec.ofNat 8 (3 * p), b := 0 }
  else if p < 170 then { r := 0, g := BitVec.ofNat 8 (255 - 3 * (p - 85)), b := BitVec.ofNat 8 (3 * (p - 85)) }
  else { r := BitVec.ofNat 8 (3 * (p - 170)), g := 0, b := BitVec.ofNat 8 (255 - 3 * (p - 170)) }

/-- One tick of the Calm generator with phase `j` (R201): LED i shows hue (i x (256 / LEDCOUNT) + j) mod 256. -/
def calmTick (ledCount j : Nat) : List Instr :=
  paintAll ledCount fun i => wheel ((i * (256 / ledCount) + j) % 256)

/-- Calm's phase after a tick (R201). -/
def calmNext (ledCount j : Nat) : Nat := (j + 1) % ledCount

/-- The HOST executes operations one after another, with nothing in between. -/
def runOps : List Instr → State → Answer
  | [], s => .next s
  | i :: rest, s => andThen (exec i s) (runOps rest)

end Sys2Proof.Machine
end

