-- ==== Sys2Proof/Safety.lean ====
section
/-! DEFINITION. What counts as a good state and a safe run, in the terms the statements use. -/

namespace Sys2Proof.Machine

/-- No fault has been raised since reset: the premise and conclusion of every claim about the block (`60_exceptions.md` R216). -/
def Safe (s : State) : Prop := s.fault = 0

/-- A canonical timing word: ZERO or MARK (`30_encoding.md` R91). -/
def Canonical (s : State) (w : Word) : Prop := w = zeroWord ∨ w = s.mark

/-- A buffer whose content is as the contract has it: canonical form of the store, canonical words at every index below FBLEN
(`20_memory.md` R73 a), zero in the slack and beyond (R63). -/
structure GoodBuffer (s : State) (m : Memory) : Prop where
  wf : m.wf = true
  canonical : ∀ i, i < s.fbLen.toNat → Canonical s (m.readWord (wordStride s.cfg) i)
  slack : ∀ a, wordAddress (wordStride s.cfg) s.fbLen.toNat ≤ a → m.readByte a = 0

/-- What holds of the configuration registers, the buffer and the counters in RUNNING and STOPPED: `10_state.md` R23, R25 to
R30, R33, `30_encoding.md` R101, `42_lifecycle.md` R171, and the phase lock of `41_sequencer.md` R140, R158. -/
structure Configured (s : State) : Prop where
  cfgWf : s.cfg.wf = true
  maskNonzero : s.pinMask ≠ 0
  maskFits : s.pinMask.toNat < 2 ^ s.cfg.wordBits
  setW : s.setW = 0#16 ++ s.pinMask
  clrW : s.clrW = s.pinMask ++ 0#16
  mark : s.mark = s.pinMask
  ledCountPos : 0 < s.ledCount.toNat
  fbLen : s.fbLen.toNat = s.ledCount.toNat * 24
  capacity : s.fbLen.toNat + s.cfg.slackWords ≤ s.cfg.fbCapacity
  pos : s.pos.toNat < s.fbLen.toNat
  buffer : ∃ m, s.fb = some m ∧ GoodBuffer s m
  cntC : s.cntC < s.cfg.p
  cntE : s.cntE = (s.cntC + (s.cfg.p - s.cfg.e)) % s.cfg.p
  cntL : s.cntL = (s.cntC + (s.cfg.p - s.cfg.l)) % s.cfg.p

/-- The invariant of the block: what every step keeps. -/
structure Inv (s : State) : Prop where
  /-- The latches are in canonical form. -/
  latches : sparseWf s.out = true
  /-- The buffer's bytes are in canonical form, in every lifecycle state. -/
  memory : ∀ m, s.fb = some m → m.wf = true
  /-- Fault codes 5 to 7 are never produced (`93_implementation_defined.md` U15). -/
  faultCode : s.fault.toNat ≤ 4
  /-- EN, ARM_E, ARM_L are 1 exactly in RUNNING (`10_state.md` R31). -/
  enables : s.en = decide (s.state = .running) ∧ s.armE = decide (s.state = .running) ∧ s.armL = decide (s.state = .running)
  /-- HALTED only after a fault (`10_state.md` R21). -/
  halted : s.state = .halted → s.fault ≠ 0
  /-- Before INIT there is no buffer and no fault (`10_state.md` R33). -/
  uninit : s.state = .uninit → s.fb = none ∧ s.fault = 0
  configured : s.state.configured = true → Configured s
  /-- The writes of an ENCRGB in progress are canonical and inside the buffer, of a configured block. -/
  pendingGood : ∀ p ∈ s.pendingWrites, p.1 < s.fbLen.toNat ∧ Canonical s p.2
  pendingConfigured : s.pendingWrites ≠ [] → s.state.configured = true

/-- `n` steps of the machine, stopping at the first fault or refusal (the host's `Host.Core.run`, on this machine). -/
def steps : Nat → State → Answer
  | 0, s => .next s
  | n + 1, s => andThen (step s) (steps n)

/-- The masked pins of the selected port are all high or all low (`41_sequencer.md` R151). -/
def MaskedUniform (s : State) : Prop :=
  latch s s.portSel &&& s.pinMask = s.pinMask ∨ latch s s.portSel &&& s.pinMask = 0

/-- A completed run: STOPPED with no HOST operation left (`70_reset_and_hazards.md` R262 b). -/
def Completed (s : State) : Prop := s.state = .stopped ∧ s.inbox = [] ∧ s.pendingWrites = []

/-- A failed run: HALTED with a fault (R262 a). -/
def Failed (s : State) : Prop := s.state = .halted ∧ s.fault ≠ 0

end Sys2Proof.Machine
end

