-- ==== Sys2Proof/Certificates/Slice0/Obligations.lean ====
section
/-! DEFINITION. The statements for the provers, in the order of the spec's files. None concerns a program; each holds for every
parameter the spec leaves open, unless it says otherwise. Of the fields in the conclusions, `result`, `raised` and `portTrace` are the
model's own observations (log entries 10, 11), `inbox` and `pendingWrites` its schedule (log entries 8, 9). -/

open Sys2Proof Sys2Proof.Machine

/-! ### Encoding -/

/-- Decoding an encoded well-formed instruction gives it back, whatever its operands. A T0 is read under the MARK it carries
(`30_encoding.md` R91, R92, R96, R97, R103, R104). -/
def Obligations.DecodeOfEncodeIsIdentity : Prop :=
  ∀ (wordBits : Nat) (mark : Word) (i : Instr),
    i.wellFormed wordBits = true → (∀ m, i = .t0 m → m = mark) → decode mark (encode i) = .ok i

/-- One value of each operation's, event's and word's format, written out from R91, R92, R96, R97 and the programs P1 and P5 of
`95_test_vectors.md`, decodes to the instruction it stands for. -/
def Obligations.SpecEncodingsDecode : Prop :=
  decode 0x0001 (.tw 0x0000) = .ok .t1 ∧
  decode 0x0001 (.tw 0x0001) = .ok (.t0 0x0001) ∧
  decode 0x0001 (.sym 0x0C) = .ok (.sym 0xC) ∧
  decode 0x0001 (.op { op := 0x1, ledCount := 0x00000001, port := 0, pinMask := 0x0001 }) = .ok (.init 1 0 0x0001) ∧
  decode 0x0001 (.op { op := 0x2 }) = .ok .stop ∧
  decode 0x0001 (.op { op := 0x3 }) = .ok .start ∧
  decode 0x0001 (.op { op := 0x4, v := 0x80 }) = .ok (.enc8 0x80) ∧
  decode 0x0001 (.op { op := 0x5, i := 0x0000, r := 0x12, g := 0x80, b := 0xFF }) = .ok (.encrgb 0 0x12 0x80 0xFF) ∧
  decode 0x0001 (.op { op := 0x6, i := 0x0000, w := 0x0000 }) = .ok (.fbwr 0 0) ∧
  decode 0x0001 (.op { op := 0x7, i := 0x0017 }) = .ok (.fbrd 23) ∧
  decode 0x0001 (.evt 0) = .ok .seqSet ∧
  decode 0x0001 (.evt 1) = .ok .seqEarly ∧
  decode 0x0001 (.evt 2) = .ok .seqLate

/-- Reserved encodings decode to nothing, each rejected by name: a word that is neither ZERO nor MARK (R105), the selectors 0 and
8 to 15, and source id 3 (R106 a, b), a symbol whose upper nibble is not zero (R92). A HOST operation with a reserved selector,
issued whole or begun as a split one, is refused by the step in every lifecycle state once no single-word write is pending. That
the refusal is the step's, by the name undecodable, is the model's reading (log entry 19), and that operations come through the
schedule its choice (log entries 8, 9). -/
def Obligations.ReservedEncodingsAreRejected : Prop :=
  (∀ mark w : Word, w ≠ 0 → w ≠ mark → decode mark (.tw w) = .error (.malformedWord w)) ∧
  (∀ (mark : Word) (f : OpForm), f.op.toNat = 0 ∨ 8 ≤ f.op.toNat → decode mark (.op f) = .error (.reservedSelector f.op)) ∧
  (∀ mark : Word, decode mark (.evt 3) = .error .reservedSource) ∧
  (∀ (mark : Word) (b : Byte), 16 ≤ b.toNat → decode mark (.sym b) = .error (.notASymbol b)) ∧
  (∀ (s : State) (f : OpForm) (rest : List Input), f.op.toNat = 0 ∨ 8 ≤ f.op.toNat →
    s.inbox = .op f :: rest ∨ s.inbox = .split f :: rest → s.pendingWrites = [] →
    step s = .refused (.undecodable (.reservedSelector f.op)))

/-! ### Field assembly and the encoder -/

/-- R98: the quantised nibble is v / 16 = v >> 4 = v[7:4], and the low nibble has no effect. -/
def Obligations.QuantiseTakesUpperNibble : Prop :=
  ∀ v : Byte, (quantise v).toNat = v.toNat / 16 ∧ quantise v = (v >>> 4).setWidth 4 ∧
    (∀ n < 4, (quantise v).getLsbD n = v.getLsbD (4 + n)) ∧ quantise (v &&& 0xF0) = quantise v

/-- R99: the symbol is the nibble with four zero bits above it, equivalently (v >> 4) & 0x0F. -/
def Obligations.SymbolIsNibbleZeroExtended : Prop :=
  (∀ q : BitVec 4, symbolOf q = q.setWidth 8 ∧ ∀ n, 4 ≤ n → (symbolOf q).getLsbD n = false) ∧
  (∀ v : Byte, symbolOf (quantise v) = (v >>> 4) &&& 0x0F)

/-- R100: one word per bit, most significant bit first; a 1 bit is the zero word, a 0 bit the marker. -/
def Obligations.SymbolWordsMostSignificantFirst : Prop :=
  ∀ (mark : Word) (s : Byte), (symbolWords mark s).length = 8 ∧
    ∀ n < 8, (symbolWords mark s)[n]? = some (if s.getLsbD (7 - n) then 0 else mark)

/-- R125: on a sequence of eight canonical words DEC8 gives bit 7-n the value 0 where word n is MARK and 1 where it is ZERO, and
DEC8(ENC8(v)) = zext_8(v >> 4) for every v. MARK is not ZERO, as INIT makes sure. -/
def Obligations.Dec8InvertsEnc8 : Prop :=
  (∀ (mark : Word) (ws : List Word), mark ≠ 0 → ws.length = 8 → (∀ w ∈ ws, w = 0 ∨ w = mark) →
    ∀ n < 8, (dec8 mark ws).getLsbD (7 - n) = !decide (ws[n]? = some mark)) ∧
  (∀ (mark : Word) (v : Byte), mark ≠ 0 → dec8 mark (channelWords mark v) = ((v >>> 4).setWidth 4).setWidth 8)

/-- `40_encoder.md` R126 (a), (b), (d): ENC8 factors through the nibble and is injective in it; a block determines the three
nibbles; ZERO stands only at offsets 4 to 7 of a channel. -/
def Obligations.EncoderFactorsThroughNibble : Prop :=
  ∀ mark : Word, mark ≠ 0 →
    (∀ v v' : Byte, channelWords mark v = channelWords mark v' ↔ v >>> 4 = v' >>> 4) ∧
    (∀ r g b r' g' b' : Byte, blockWords mark r g b = blockWords mark r' g' b' →
      r >>> 4 = r' >>> 4 ∧ g >>> 4 = g' >>> 4 ∧ b >>> 4 = b' >>> 4) ∧
    (∀ (r g b : Byte) (n : Nat), n < 24 → n % 8 < 4 → (blockWords mark r g b)[n]? = some mark)

/-- R102: the index of a word and its inverse, and no two words of a frame share an index. -/
def Obligations.WordIndexHasInverse : Prop :=
  (∀ i c b : Nat, c < 3 → b < 8 →
    wordIndex i c b = 24 * i + 8 * c + (7 - b) ∧ ledOfIndex (wordIndex i c b) = i ∧
    channelOfIndex (wordIndex i c b) = c ∧ bitOfIndex (wordIndex i c b) = b) ∧
  (∀ j : Nat, ledOfIndex j = j / 24 ∧ channelOfIndex j = (j % 24) / 8 ∧ bitOfIndex j = 7 - j % 8 ∧
    wordIndex (ledOfIndex j) (channelOfIndex j) (bitOfIndex j) = j)

/-- ENC8 (R121, R170): selector 4 with its operand v is ENC8 v. In RUNNING and STOPPED it answers the eight words of v, most significant bit of v >> 4 first, and changes
nothing else; in UNINIT and HALTED it is refused. -/
def Obligations.Enc8AnswersWords : Prop :=
  (∀ (mark : Word) (f : OpForm), f.op = 0x4 → decode mark (.op f) = .ok (.enc8 f.v)) ∧
  (∀ (s : State) (v : Byte), s.state = .running ∨ s.state = .stopped →
    ∃ ws : List Word, exec (.enc8 v) s = .next { s with result := .words ws } ∧ ws.length = 8 ∧
      ∀ n < 8, ws[n]? = some (if (v >>> 4).getLsbD (7 - n) then 0 else s.mark)) ∧
  (∀ (s : State) (v : Byte), s.state = .uninit ∨ s.state = .halted → exec (.enc8 v) s = .refused .notConfigured)

/-- SYM (R92, R99, R100). That a symbol can be executed at all is the model's choice (log entry 14): where ENC8 is defined it
answers the eight words of the symbol `0000qqqq` and changes nothing else, so ENC8 v is the SYM of v[7:4]. -/
def Obligations.SymAnswersWordsOfSymbol : Prop :=
  (∀ (s : State) (q : BitVec 4), s.state = .running ∨ s.state = .stopped →
    ∃ ws : List Word, exec (.sym q) s = .next { s with result := .words ws } ∧ ws.length = 8 ∧
      ∀ n < 8, ws[n]? = some (if (q.setWidth 8).getLsbD (7 - n) then 0 else s.mark)) ∧
  (∀ (s : State) (q : BitVec 4), s.state = .uninit ∨ s.state = .halted → exec (.sym q) s = .refused .notConfigured) ∧
  (∀ (s : State) (v : Byte), exec (.enc8 v) s = exec (.sym (v.extractLsb' 4 4)) s)

/-- ENCRGB (R93, R123): for an LED of a configured block it completes; afterwards the word of bit b of Green, Red, Blue of LED i
is ZERO or MARK by bit b of the channel's intensity >> 4, every byte outside the LED's 24 words reads as before, and only FB and
the returned result have changed. -/
def Obligations.EncrgbWritesBlock : Prop :=
  ∀ (s : State) (m : Memory) (i : BitVec 16) (r g b : Byte),
    s.state = .running ∨ s.state = .stopped → s.cfg.wf = true → s.fb = some m → i.toNat < s.ledCount.toNat →
    s.fbLen.toNat = s.ledCount.toNat * 24 → s.mark.toNat < 2 ^ s.cfg.wordBits →
    ∃ m' : Memory, exec (.encrgb i r g b) s = .next { s with fb := some m', result := .none } ∧
      (∀ k < 8,
        m'.readWord (wordStride s.cfg) (wordIndex i.toNat 0 k) = (if (g >>> 4).getLsbD k then 0 else s.mark) ∧
        m'.readWord (wordStride s.cfg) (wordIndex i.toNat 1 k) = (if (r >>> 4).getLsbD k then 0 else s.mark) ∧
        m'.readWord (wordStride s.cfg) (wordIndex i.toNat 2 k) = (if (b >>> 4).getLsbD k then 0 else s.mark)) ∧
      (∀ a, a < wordAddress (wordStride s.cfg) (24 * i.toNat) ∨ wordAddress (wordStride s.cfg) (24 * i.toNat + 24) ≤ a →
        m'.readByte a = m.readByte a)

/-- ENCRGB is 24 single-word writes (R124): begun by a `split` input and finished by 24 `write` inputs with no tick between, it
ends where the whole operation ends, or stops as it does. That the HOST's writes come as inputs is the model's choice (log
entries 8, 9). -/
def Obligations.SplitEncrgbEqualsWhole : Prop :=
  ∀ (s : State) (i : BitVec 16) (r g b : Byte) (rest : List Input), s.pendingWrites = [] →
    s.inbox = .split { op := 0x5, i := i, r := r, g := g, b := b } :: (List.replicate 24 .write ++ rest) →
    steps 25 s = exec (.encrgb i r g b) { s with inbox := rest }

/-! ### The frame buffer and the port -/

/-- Memory laws (`20_memory.md` R64, R65, R67): a whole word written is read back, every other word and every byte outside the
word is left alone. -/
def Obligations.WordWriteThenRead : Prop :=
  ∀ (c : Config) (m : Memory) (i : Nat) (w : Word), c.wf = true → w.toNat < 2 ^ c.wordBits →
    (m.writeWord (wordStride c) i w).readWord (wordStride c) i = w ∧
    (∀ j, j ≠ i → (m.writeWord (wordStride c) i w).readWord (wordStride c) j = m.readWord (wordStride c) j) ∧
    (∀ a, a < wordAddress (wordStride c) i ∨ wordAddress (wordStride c) (i + 1) ≤ a →
      (m.writeWord (wordStride c) i w).readByte a = m.readByte a)

/-- FBWR (R190): in RUNNING and STOPPED, a canonical word at an index below FBLEN is written; every other byte of the buffer and
everything else is unchanged, POS among it. -/
def Obligations.FbwrWritesWord : Prop :=
  ∀ (s : State) (m : Memory) (i : BitVec 16) (w : Word),
    s.state = .running ∨ s.state = .stopped → s.cfg.wf = true → s.fb = some m → i.toNat < s.fbLen.toNat →
    w = 0 ∨ w = s.mark → w.toNat < 2 ^ s.cfg.wordBits →
    ∃ m' : Memory, exec (.fbwr i w) s = .next { s with fb := some m', result := .none } ∧
      m'.readWord (wordStride s.cfg) i.toNat = w ∧
      (∀ a, a < wordAddress (wordStride s.cfg) i.toNat ∨ wordAddress (wordStride s.cfg) (i.toNat + 1) ≤ a →
        m'.readByte a = m.readByte a)

/-- FBWR's breaches (R190, R214, R216 d): an index at or above FBLEN raises FbIndexOutOfRange (code 3), whatever the word; else a
word that is neither ZERO nor MARK raises MalformedWord (code 4). FAULT keeps the first code, STATE and the buffer are
unchanged. In UNINIT and HALTED it is refused. -/
def Obligations.FbwrBreachesRaise : Prop :=
  (∀ (s : State) (i : BitVec 16) (w : Word), s.state = .running ∨ s.state = .stopped → s.fbLen.toNat ≤ i.toNat →
    exec (.fbwr i w) s = .next { s with
      fault := if s.fault = 0 then 3 else s.fault, raised := some (.fbIndexOutOfRange i.toNat), result := .none }) ∧
  (∀ (s : State) (i : BitVec 16) (w : Word), s.state = .running ∨ s.state = .stopped → i.toNat < s.fbLen.toNat →
    w ≠ 0 → w ≠ s.mark →
    exec (.fbwr i w) s = .next { s with
      fault := if s.fault = 0 then 4 else s.fault, raised := some (.malformedWrite i.toNat w), result := .none }) ∧
  (∀ (s : State) (i : BitVec 16) (w : Word), s.state = .uninit ∨ s.state = .halted →
    exec (.fbwr i w) s = .refused .notConfigured)

/-- FBRD (R191): below FBLEN it answers the word and changes nothing else; at or above FBLEN it raises FbIndexOutOfRange; in
UNINIT and HALTED it is refused. -/
def Obligations.FbrdReadsWord : Prop :=
  (∀ (s : State) (m : Memory) (i : BitVec 16), s.state = .running ∨ s.state = .stopped → s.fb = some m →
    i.toNat < s.fbLen.toNat →
    exec (.fbrd i) s = .next { s with result := .word (m.readWord (wordStride s.cfg) i.toNat) }) ∧
  (∀ (s : State) (i : BitVec 16), s.state = .running ∨ s.state = .stopped → s.fbLen.toNat ≤ i.toNat →
    exec (.fbrd i) s = .next { s with
      fault := if s.fault = 0 then 3 else s.fault, raised := some (.fbIndexOutOfRange i.toNat), result := .none }) ∧
  (∀ (s : State) (i : BitVec 16), s.state = .uninit ∨ s.state = .halted → exec (.fbrd i) s = .refused .notConfigured)

/-- ENCRGB of an LED that does not exist (R123, R62) raises FbIndexOutOfRange at word 24 i and writes nothing; in UNINIT and HALTED
it is refused. -/
def Obligations.EncrgbOutOfRangeRaises : Prop :=
  (∀ (s : State) (i : BitVec 16) (r g b : Byte), s.state = .running ∨ s.state = .stopped →
    s.ledCount.toNat ≤ i.toNat →
    exec (.encrgb i r g b) s = .next { s with
      fault := if s.fault = 0 then 3 else s.fault, raised := some (.fbIndexOutOfRange (24 * i.toNat)), result := .none }) ∧
  (∀ (s : State) (i : BitVec 16) (r g b : Byte), s.state = .uninit ∨ s.state = .halted →
    exec (.encrgb i r g b) s = .refused .notConfigured)

/-- PortWrite (`20_memory.md` R70), pin by pin: a 1 in the set half drives the pin high, else a 1 in the clear half drives it low,
else it stays; latches of other ports, and everything but the trace, stay. Writing a value twice leaves OUT as writing it once
(R69). That set wins where both halves have a 1 is the formula's, never exercised (log entry 25). -/
def Obligations.PortWriteActsPerPin : Prop :=
  ∀ (v : PortWord) (s : State),
    (∀ p < 16, (latch (portWrite v s) s.portSel).getLsbD p =
      (if v.getLsbD p then true else if v.getLsbD (16 + p) then false else (latch s s.portSel).getLsbD p)) ∧
    (∀ port, port ≠ s.portSel → latch (portWrite v s) port = latch s port) ∧
    portWrite v s = { s with out := (portWrite v s).out, portTrace := v :: s.portTrace } ∧
    (∀ port, latch (portWrite v (portWrite v s)) port = latch (portWrite v s) port)

/-! ### The sequencer -/

/-- SEQ.SET (R142): the event of source id 0. At the cadence source's turn in RUNNING it completes; every masked pin of the selected port is high, every
other pin and port is as before, and only OUT and the trace of port writes have changed. It looks at no word, so it holds for
every FB and POS. -/
def Obligations.SeqSetRaisesMaskedPins : Prop :=
  (∀ mark : Word, decode mark (.evt 0) = .ok .seqSet) ∧
  (∀ s : State, s.state = .running → s.en = true → s.cntC = 0 → s.setW = 0#16 ++ s.pinMask →
    ∃ o : Latches, exec .seqSet s = .next { s with out := o, portTrace := s.setW :: s.portTrace } ∧
      sparseGet o s.portSel = (latch s s.portSel ||| s.pinMask) ∧
      ∀ port, port ≠ s.portSel → sparseGet o port = latch s port)

/-- SEQ.LATE (R147): the event of source id 2. At the late-reset source's turn in RUNNING it completes; every masked pin of the selected port is low, every
other pin and port is as before, and only OUT and the trace have changed. -/
def Obligations.SeqLateLowersMaskedPins : Prop :=
  (∀ mark : Word, decode mark (.evt 2) = .ok .seqLate) ∧
  (∀ s : State, s.state = .running → s.en = true → s.armL = true → s.cntL = 0 → s.clrW = s.pinMask ++ 0#16 →
    ∃ o : Latches, exec .seqLate s = .next { s with out := o, portTrace := s.clrW :: s.portTrace } ∧
      sparseGet o s.portSel = (latch s s.portSel &&& ~~~s.pinMask) ∧
      ∀ port, port ≠ s.portSel → sparseGet o port = latch s port)

/-- T1 (R144): at the early-reset source's turn the word ZERO changes no pin of any port; only the write of 0 is recorded. -/
def Obligations.T1ChangesNoPin : Prop :=
  ∀ s : State, s.state = .running → s.en = true → s.armE = true → s.cntE = 0 →
    ∃ o : Latches, exec .t1 s = .next { s with out := o, portTrace := 0 :: s.portTrace } ∧
      ∀ port, sparseGet o port = latch s port

/-- T0 (R145): at the early-reset source's turn the word MARK = PINMASK drives every masked pin of the selected port low and leaves
every other pin and port. Executed with a word that is not MARK it takes MalformedWord, as the fetch of that word does (the
model's reading, log entry 15). -/
def Obligations.T0LowersMaskedPins : Prop :=
  (∀ s : State, s.state = .running → s.en = true → s.armE = true → s.cntE = 0 → s.mark = s.pinMask → s.mark ≠ 0 →
    ∃ o : Latches, exec (.t0 s.mark) s = .next { s with out := o, portTrace := (s.pinMask ++ 0#16) :: s.portTrace } ∧
      sparseGet o s.portSel = (latch s s.portSel &&& ~~~s.pinMask) ∧
      ∀ port, port ≠ s.portSel → sparseGet o port = latch s port) ∧
  (∀ (s : State) (m : Word), s.state = .running → s.en = true → s.armE = true → s.cntE = 0 → m = 0 ∨ m ≠ s.mark →
    exec (.t0 m) s = .next { s with
      fault := if s.fault = 0 then 4 else s.fault, state := .halted, en := false, armE := false, armL := false,
      raised := some (.malformedFetch s.pos.toNat m) })

/-- SEQ.EARLY (R143, R146, R71): at its turn it fetches FB[POS], executes a canonical word (ZERO changes no pin, MARK lowers the
pins of MARK) and advances POS by one, wrapping to 0 at FBLEN. Nothing else changes. -/
def Obligations.SeqEarlyPlaysWord : Prop :=
  ∀ (s : State) (m : Memory) (w : Word), s.state = .running → s.en = true → s.armE = true → s.cntE = 0 →
    s.fb = some m → s.pos.toNat < s.fbLen.toNat → w = m.readWord (wordStride s.cfg) s.pos.toNat → w = 0 ∨ w = s.mark →
    ∃ (o : Latches) (pos : BitVec 16),
      exec .seqEarly s = .next { s with out := o, pos := pos, portTrace := (w ++ 0#16) :: s.portTrace } ∧
      (pos.toNat = if s.pos.toNat + 1 = s.fbLen.toNat then 0 else s.pos.toNat + 1) ∧
      sparseGet o s.portSel = (latch s s.portSel &&& ~~~w) ∧
      ∀ port, port ≠ s.portSel → sparseGet o port = latch s port

/-- SEQ.EARLY fetching a word that is neither ZERO nor MARK (R143, R216 c): MalformedWord is taken; OUT and POS are unchanged, EN,
ARM_E, ARM_L are 0, STATE is HALTED, FAULT keeps the first code. -/
def Obligations.SeqEarlyMalformedHalts : Prop :=
  ∀ (s : State) (m : Memory) (w : Word), s.state = .running → s.en = true → s.armE = true → s.cntE = 0 →
    s.fb = some m → s.pos.toNat < s.fbLen.toNat → w = m.readWord (wordStride s.cfg) s.pos.toNat → w ≠ 0 → w ≠ s.mark →
    exec .seqEarly s = .next { s with
      fault := if s.fault = 0 then 4 else s.fault, state := .halted, en := false, armE := false, armL := false,
      raised := some (.malformedFetch s.pos.toNat w) }

/-- An event, or the execution of a timing word, is refused when it is not its source's turn ("Enabled when", R142, R143, R147;
the refusal is the model's, log entry 13). -/
def Obligations.EventsOutOfTurnAreRefused : Prop :=
  ∀ s : State,
    (s.state ≠ .running ∨ s.en = false ∨ s.cntC ≠ 0 → exec .seqSet s = .refused .eventNotEnabled) ∧
    (s.state ≠ .running ∨ s.en = false ∨ s.armE = false ∨ s.cntE ≠ 0 →
      exec .seqEarly s = .refused .eventNotEnabled ∧ exec .t1 s = .refused .eventNotEnabled ∧
      ∀ m, exec (.t0 m) s = .refused .eventNotEnabled) ∧
    (s.state ≠ .running ∨ s.en = false ∨ s.armL = false ∨ s.cntL ≠ 0 → exec .seqLate s = .refused .eventNotEnabled)

/-- POS is written by INIT, START and SEQ.EARLY only (`10_state.md` R29). -/
def Obligations.OnlyThreeInstructionsWritePos : Prop :=
  ∀ (i : Instr) (s t : State), exec i s = .next t →
    (∀ n port mask, i ≠ .init n port mask) → i ≠ .start → i ≠ .seqEarly → t.pos = s.pos

/-- The sequencer alone drives OUT (`60_exceptions.md` R222): no HOST operation changes any latch. -/
def Obligations.HostOperationsLeavePins : Prop :=
  ∀ (f : OpForm) (i : Instr) (s t : State), decode s.mark (.op f) = .ok i → exec i s = .next t → t.out = s.out

/-- Pins outside the mask (R154): a tick changes no latch bit but the masked pins of the selected port. -/
def Obligations.UnmaskedPinsNeverChange : Prop :=
  ∀ s t : State, Inv s → tick s = .next t →
    ∀ (port : PortId) (p : Nat), port ≠ s.portSel ∨ s.pinMask.getLsbD p = false →
      (latch t port).getLsbD p = (latch s port).getLsbD p

/-- Fan-out (R151): once the masked pins are all high or all low, every step of a block that goes on running keeps them so, and
every SEQ.SET makes them so, whatever they were. The steps include outside writes, which spare the pins of a running block (log
entry 2). -/
def Obligations.MaskedPinsMoveTogether : Prop :=
  (∀ s t : State, Inv s → s.state = .running → MaskedUniform s → step s = .next t → t.state = .running →
    MaskedUniform t) ∧
  (∀ s t : State, Inv s → exec .seqSet s = .next t → MaskedUniform t)

/-- The tick model (R158): from a start sequence, after n ticks with no HOST step in between, CNT_C = n mod P, CNT_E = (n + P - E)
mod P, CNT_L = (n + P - L) mod P, and the block is still running with no fault added. -/
def Obligations.CountersFollowTicks : Prop :=
  ∀ (n : Nat) (s : State), Inv s → s.state = .stopped →
    ∃ s' t : State, exec .start s = .next s' ∧ ticks n s' = .next t ∧
      t.cntC = n % s.cfg.p ∧ t.cntE = (n + (s.cfg.p - s.cfg.e)) % s.cfg.p ∧ t.cntL = (n + (s.cfg.p - s.cfg.l)) % s.cfg.p ∧
      t.state = .running ∧ t.fault = s.fault

/-- The pulse (R149, R160): from the beginning of a bit period whose word is w, with no HOST step in between, after n <= P ticks
(n > 0) every masked pin is high if n is at most E for the word MARK, at most L for the word ZERO, and low afterwards; the other
pins of the port are as before. -/
def Obligations.BitPeriodShapesPulse : Prop :=
  ∀ (n : Nat) (s : State) (m : Memory) (w : Word), Inv s → s.state = .running → s.cntC = 0 → s.fb = some m →
    w = m.readWord (wordStride s.cfg) s.pos.toNat → 0 < n → n ≤ s.cfg.p →
    ∃ t : State, ticks n s = .next t ∧
      latch t s.portSel =
        (if n ≤ (if w = 0 then s.cfg.l else s.cfg.e) then latch s s.portSel ||| s.pinMask
         else latch s s.portSel &&& ~~~s.pinMask)

/-- One bit period (R148): three port writes in the order SETW, the word in the clear half, CLRW; exactly one word consumed, POS
advanced by one with the wrap; FB, FAULT, every configuration register and the parameters unchanged, the block still running. -/
def Obligations.BitPeriodMakesThreePortWrites : Prop :=
  ∀ (s : State) (m : Memory) (w : Word), Inv s → s.state = .running → s.cntC = 0 → s.fb = some m →
    w = m.readWord (wordStride s.cfg) s.pos.toNat →
    ∃ t : State, runPeriods 1 s = .next t ∧
      t.portTrace = s.clrW :: (w ++ 0#16) :: s.setW :: s.portTrace ∧
      t.pos.toNat = (s.pos.toNat + 1) % s.fbLen.toNat ∧ t.cntC = 0 ∧ t.fb = s.fb ∧ t.fault = s.fault ∧
      t.ledCount = s.ledCount ∧ t.portSel = s.portSel ∧ t.pinMask = s.pinMask ∧ t.setW = s.setW ∧ t.clrW = s.clrW ∧
      t.mark = s.mark ∧ t.fbBase = s.fbBase ∧ t.fbLen = s.fbLen ∧ t.cfg = s.cfg ∧ t.state = .running

/-- Frames (R29, R152): k whole bit periods after a start, with no HOST step in between, POS = k mod FBLEN, so the words are played
in index order and FB[0] follows FB[FBLEN - 1] with no pause. -/
def Obligations.PosCountsBitPeriods : Prop :=
  ∀ (k : Nat) (s : State), Inv s → s.state = .stopped →
    ∃ s' t : State, exec .start s = .next s' ∧ runPeriods k s' = .next t ∧ t.pos.toNat = k % s.fbLen.toNat

/-! ### Lifecycle -/

/-- INIT (R173, R174, R176; from STOPPED under ALLOW_REINIT by R179) of a good geometry and mask, when the allocator supplies the
buffer: all registers, a buffer that reads
zero at every byte, a fresh handle returned, the start sequence done, STATE = RUNNING. FAULT and OUT are unchanged. Where
the allocator's answer comes from and that the draw is counted are the model's choice (log entry 7), and so is the handle's serial
number (log entry 6). -/
def Obligations.InitBringsUpBlock : Prop :=
  ∀ (s : State) (n : BitVec 32) (port : PortId) (mask : Word), s.cfg.wf = true →
    s.state = .uninit ∨ (s.state = .stopped ∧ s.cfg.allowReinit = true) →
    mask ≠ 0 → mask.toNat < 2 ^ s.cfg.wordBits → 0 < n.toInt →
    n.toNat * 24 + s.cfg.slackWords ≤ s.cfg.fbCapacity → allocAnswer (n.toNat * 24 + s.cfg.slackWords) s = true →
    ∃ (h : Handle) (m : Memory),
      exec (.init n port mask) s = .next { s with
        state := .running, ledCount := n.setWidth 16, portSel := port, pinMask := mask,
        setW := mask.setWidth 32, clrW := mask.setWidth 32 <<< 16, mark := mask, fbBase := h,
        fbLen := n.setWidth 16 * 24, pos := 0, en := true, armE := true, armL := true,
        cntC := 0, cntE := s.cfg.p - s.cfg.e, cntL := s.cfg.p - s.cfg.l, fb := some m, result := .handle h,
        draws := s.draws + 1, allocAnswers := s.allocAnswers.tail } ∧
      h.serial = s.draws + 1 ∧ (∀ a, m.readByte a = 0)

/-- INIT's fatal errors (R171 a, R172, R212 to R214, R216): ledCount <= 0 raises InvalidGeometry with no allocation attempted; else a
buffer the allocator cannot supply raises AllocFail, always so above FB_CAPACITY. STATE <- HALTED, the first code is kept,
nothing is configured, no handle is returned. From STOPPED it is the INIT that R179 admits under ALLOW_REINIT, and that the old
configuration and buffer stay in place there is the model's reading (log entry 21). That a failing allocation counts the draw and
consumes the answer is the model's choice (log entry 7). -/
def Obligations.InitFatalErrorsHalt : Prop :=
  ∀ (s : State) (n : BitVec 32) (port : PortId) (mask : Word), s.cfg.wf = true →
    s.state = .uninit ∨ (s.state = .stopped ∧ s.cfg.allowReinit = true) →
    mask ≠ 0 → mask.toNat < 2 ^ s.cfg.wordBits →
    (n.toInt ≤ 0 →
      exec (.init n port mask) s = .next { s with
        fault := if s.fault = 0 then 1 else s.fault, state := .halted, raised := some (.invalidGeometry n),
        result := .none }) ∧
    (0 < n.toInt →
      s.cfg.fbCapacity < n.toNat * 24 + s.cfg.slackWords ∨ allocAnswer (n.toNat * 24 + s.cfg.slackWords) s = false →
      exec (.init n port mask) s = .next { s with
        fault := if s.fault = 0 then 2 else s.fault, state := .halted,
        raised := some (.allocFail (n.toNat * 24 + s.cfg.slackWords)), result := .none,
        draws := s.draws + 1, allocAnswers := s.allocAnswers.tail })

/-- INIT's refusals (R170, R171 b, R179): in RUNNING and HALTED always, in STOPPED unless ALLOW_REINIT; with a zero mask or one wider
than a timing word, before the geometry is looked at. -/
def Obligations.InitRefusals : Prop :=
  ∀ (s : State) (n : BitVec 32) (port : PortId) (mask : Word), s.cfg.wf = true →
    (s.state = .running ∨ s.state = .halted ∨ (s.state = .stopped ∧ s.cfg.allowReinit = false) →
      exec (.init n port mask) s = .refused .initNotAdmitted) ∧
    (s.state = .uninit ∨ (s.state = .stopped ∧ s.cfg.allowReinit = true) →
      mask = 0 ∨ 2 ^ s.cfg.wordBits ≤ mask.toNat → exec (.init n port mask) s = .refused .badPinMask)

/-- STOP (R178): in RUNNING it clears EN, ARM_E, ARM_L and leads to STOPPED; OUT, POS, the counters, the configuration and FB keep
their values. Elsewhere it is refused. -/
def Obligations.StopStopsPlayback : Prop :=
  ∀ s : State,
    (s.state = .running → exec .stop s = .next { s with
      en := false, armE := false, armL := false, state := .stopped, result := .none }) ∧
    (s.state ≠ .running → exec .stop s = .refused .stopNotAdmitted)

/-- START (R180, R176): in STOPPED it performs the start sequence, so that POS and CNT_C are 0, CNT_E = P - E, CNT_L = P - L, EN,
ARM_E, ARM_L are 1, and leads to RUNNING; FB, OUT and the configuration are unchanged. Elsewhere it is refused. -/
def Obligations.StartRestartsPlayback : Prop :=
  ∀ s : State,
    (s.state = .stopped → exec .start s = .next { s with
      pos := 0, cntC := 0, cntE := s.cfg.p - s.cfg.e, cntL := s.cfg.p - s.cfg.l, en := true, armE := true, armL := true,
      state := .running, result := .none }) ∧
    (s.state ≠ .stopped → exec .start s = .refused .startNotAdmitted)

/-- Outside RUNNING no sequencer event happens (R170, R178): a tick changes nothing, no instruction but START or INIT makes the block
run, and a step makes it run only by executing a START or an INIT that stands at the head of the schedule with no single-word write
pending: no tick, no single-word write and no outside write of pins does. The schedule is the model's own (log entries 8, 9). -/
def Obligations.OnlyInitAndStartSetRunning : Prop :=
  (∀ s : State, Inv s → s.state ≠ .running → tick s = .next s) ∧
  (∀ (i : Instr) (s t : State), exec i s = .next t → s.state ≠ .running → t.state = .running →
    i = .start ∨ ∃ n port mask, i = .init n port mask) ∧
  (∀ s t : State, Inv s → s.state ≠ .running → step s = .next t → t.state = .running →
    s.pendingWrites = [] ∧ ∃ (f : OpForm) (rest : List Input),
      (f.op = 0x1 ∨ f.op = 0x3) ∧ (s.inbox = .op f :: rest ∨ s.inbox = .split f :: rest))

/-- HALTED is terminal until reset (`10_state.md` R21, `60_exceptions.md` R217): every HOST operation is refused, and any step that
gives a next state stays HALTED with the same FAULT and the same latches at the pins of a port that nobody else writes. -/
def Obligations.HaltedIsTerminal : Prop :=
  (∀ (s : State) (f : OpForm) (i : Instr), s.state = .halted → decode s.mark (.op f) = .ok i →
    ∃ e, exec i s = .refused e) ∧
  (∀ s t : State, Inv s → s.state = .halted → step s = .next t →
    t.state = .halted ∧ t.fault = s.fault ∧ ((∀ port v, s.inbox.head? ≠ some (.pins port v)) → t.out = s.out))

/-! ### Whole-machine rules -/

/-- FAULT is sticky (`10_state.md` R22, R216 a, R217): in every state, a step that gives a next state keeps a FAULT that is not 0. -/
def Obligations.FaultIsSticky : Prop :=
  ∀ s t : State, s.fault ≠ 0 → step s = .next t → t.fault = s.fault

/-- The configuration is constant after INIT (R23, R26, R173): with ALLOW_REINIT = false, once the block is not in UNINIT no step
changes LEDCOUNT, PORTSEL, PINMASK, SETW, CLRW, MARK, FBBASE or FBLEN. Whatever ALLOW_REINIT and the lifecycle state, a step that does
not execute an INIT changes none of them either, that is, where no INIT stands at the head of the schedule or a single-word write is
pending. No step ever changes the parameters, which stand in the state by the model's choice (log entry 3; the schedule, log entries
8, 9). -/
def Obligations.ConfigurationIsConstant : Prop :=
  (∀ s t : State, s.state ≠ .uninit → s.cfg.allowReinit = false → step s = .next t →
    t.ledCount = s.ledCount ∧ t.portSel = s.portSel ∧ t.pinMask = s.pinMask ∧ t.setW = s.setW ∧ t.clrW = s.clrW ∧
    t.mark = s.mark ∧ t.fbBase = s.fbBase ∧ t.fbLen = s.fbLen) ∧
  (∀ s t : State,
    (∀ f : OpForm, f.op = 0x1 → s.inbox.head? ≠ some (.op f) ∧ s.inbox.head? ≠ some (.split f)) ∨ s.pendingWrites ≠ [] →
    step s = .next t →
    t.ledCount = s.ledCount ∧ t.portSel = s.portSel ∧ t.pinMask = s.pinMask ∧ t.setW = s.setW ∧ t.clrW = s.clrW ∧
    t.mark = s.mark ∧ t.fbBase = s.fbBase ∧ t.fbLen = s.fbLen) ∧
  (∀ s t : State, step s = .next t → t.cfg = s.cfg)

/-- Playback ends only by an explicit stop (R153): a step of a running block that is not a STOP of the HOST gives a state that is
still running, or is refused. The schedule is the model's own (log entry 8). -/
def Obligations.OnlyStopEndsPlayback : Prop :=
  ∀ s t : State, Inv s → s.state = .running → step s = .next t → t.state ≠ .running →
    t.state = .stopped ∧ t.fault = s.fault ∧
      ∃ (f : OpForm) (rest : List Input), f.op = 0x2 ∧ (s.inbox = .op f :: rest ∨ s.inbox = .split f :: rest)

/-- Autonomy (R153): a running block with no input left always has a next step, keeps running and adds no fault. That with an empty schedule the
writes still owed are made and then the clock ticks is the model's choice (log entries 8, 9). -/
def Obligations.RunningBlockNeverStops : Prop :=
  ∀ (n : Nat) (s : State), Inv s → s.state = .running → s.inbox = [] →
    ∃ t : State, steps n s = .next t ∧ t.state = .running ∧ t.fault = s.fault

/-- The step runs the decoded instruction. A HOST operation at the head of the schedule, with no write pending, is decoded and
executed with that input taken; a `tick` input, or an empty schedule with no write pending, is a tick of the sequencer's clock;
SEQ.EARLY executes the instruction that FB[POS] decodes to and then advances POS. The schedule is the model's own (log entry 8). -/
def Obligations.StepRunsDecodedInstruction : Prop :=
  (∀ (s : State) (f : OpForm) (i : Instr) (rest : List Input), s.inbox = .op f :: rest → s.pendingWrites = [] →
    decode s.mark (.op f) = .ok i → step s = exec i { s with inbox := rest }) ∧
  (∀ (s : State) (rest : List Input), s.inbox = .tick :: rest → step s = tick { s with inbox := rest }) ∧
  (∀ s : State, s.inbox = [] → s.pendingWrites = [] → step s = tick s) ∧
  (∀ (s : State) (w : Word) (i : Instr), s.state = .running → s.en = true → s.armE = true → s.cntE = 0 →
    memRead s s.pos.toNat = some w → decode s.mark (.tw w) = .ok i →
    exec .seqEarly s = andThen (exec i s) fun t => .next (advancePos t))

/-- A tick runs at most one event (R158, R215): SEQ.SET when CNT_C = 0, SEQ.EARLY when CNT_E = 0, SEQ.LATE when CNT_L = 0, none
otherwise, and then every counter moves by one modulo P. -/
def Obligations.TickRunsOneEvent : Prop :=
  ∀ s : State, Inv s → s.state = .running →
    let moved (t : State) : State :=
      { t with cntC := (t.cntC + 1) % t.cfg.p, cntE := (t.cntE + 1) % t.cfg.p, cntL := (t.cntL + 1) % t.cfg.p }
    (s.cntC = 0 → ∃ t, exec .seqSet s = .next t ∧ tick s = .next (moved t)) ∧
    (s.cntE = 0 → ∃ t, exec .seqEarly s = .next t ∧ tick s = .next (moved t)) ∧
    (s.cntL = 0 → ∃ t, exec .seqLate s = .next t ∧ tick s = .next (moved t)) ∧
    (s.cntC ≠ 0 → s.cntE ≠ 0 → s.cntL ≠ 0 → tick s = .next (moved s))

/-- Pins the block does not drive belong to others (`10_state.md` R34): an outside write of a port changes the latch at exactly those
pins, never at the masked pins of the selected port of a running block, and changes nothing else. The input is the model's own
(log entry 2), and so is the reading that a block that does not run drives no pin, so that every pin of every port is open to an
outside write then (log entry 23). -/
def Obligations.OutsideWritesSpareDrivenPins : Prop :=
  ∀ (s : State) (port : PortId) (v : Word) (rest : List Input), s.inbox = .pins port v :: rest →
    ∃ o : Latches, step s = .next { s with inbox := rest, out := o } ∧
      (∀ p < 16, (sparseGet o port).getLsbD p =
        (if s.state = .running ∧ port = s.portSel ∧ s.pinMask.getLsbD p = true then (latch s port).getLsbD p
         else v.getLsbD p)) ∧
      ∀ other, other ≠ port → sparseGet o other = latch s other

/-- Reset (R36, R241): STATE = UNINIT, FAULT = 0, EN = ARM_E = ARM_L = 0, no frame buffer, and nothing happens until the HOST issues
INIT: the step changes nothing and ENC8, ENCRGB, FBWR, FBRD, STOP, START are refused. That the parameters are the defaults is the
model's choice (log entry 3), and so is that a step with an empty schedule is a tick, here an idle one (log entry 8). -/
def Obligations.ResetWaitsForInit : Prop :=
  State.reset.state = .uninit ∧ State.reset.fault = 0 ∧ State.reset.en = false ∧ State.reset.armE = false ∧
  State.reset.armL = false ∧ State.reset.fb = none ∧ State.reset.cfg = Config.default ∧
  step State.reset = .next State.reset ∧
  exec .stop State.reset = .refused .stopNotAdmitted ∧ exec .start State.reset = .refused .startNotAdmitted ∧
  (∀ v, exec (.enc8 v) State.reset = .refused .notConfigured) ∧
  (∀ i r g b, exec (.encrgb i r g b) State.reset = .refused .notConfigured) ∧
  (∀ i w, exec (.fbwr i w) State.reset = .refused .notConfigured) ∧
  (∀ i, exec (.fbrd i) State.reset = .refused .notConfigured)

/-- The invariant holds at reset. -/
def Obligations.InvariantHoldsAtReset : Prop := Inv State.reset

/-- Every step keeps the invariant, under every schedule of HOST operations, single-word writes, ticks and outside writes: the
memory keeps its canonical form, every word below FBLEN stays canonical and the slack stays zero (R63, R73 a), POS stays below
FBLEN (R29), the counters stay in phase (R158), EN, ARM_E, ARM_L are 1 exactly in RUNNING (R31), SETW, CLRW, MARK stay the words
of the pin mask (R101), and HALTED means a fault (R21). -/
def Obligations.StepKeepsInvariant : Prop := ∀ s t : State, Inv s → step s = .next t → Inv t

/-- Every fetched word is canonical (R73 a): under the invariant SEQ.EARLY never faults, at whatever point of the HOST's writes it
falls. -/
def Obligations.FetchIsAlwaysCanonical : Prop :=
  ∀ s : State, Inv s → s.state = .running → s.cntE = 0 →
    ∃ (w : Word) (t : State), memRead s s.pos.toNat = some w ∧ (w = 0 ∨ w = s.pinMask) ∧
      exec .seqEarly s = .next t ∧ t.fault = s.fault ∧ t.state = .running

/-- Fetch coherence (R75): a word written by FBWR at POS is the word the next SEQ.EARLY plays, with no maintenance in between. -/
def Obligations.FetchSeesLatestWrite : Prop :=
  ∀ (s : State) (w : Word), Inv s → s.state = .running → s.cntE = 0 → w = 0 ∨ w = s.mark →
    ∃ t u : State, exec (.fbwr s.pos w) s = .next t ∧ exec .seqEarly t = .next u ∧
      u.portTrace = (w ++ 0#16) :: s.portTrace

/-- After a successful INIT and before any HOST write, every word plays as a long pulse (R37): the first fetch of every bit period
of the first frame writes 0, whatever the mask. -/
def Obligations.FreshBufferPlaysOnes : Prop :=
  ∀ (k : Nat) (s : State) (m : Memory), Inv s → s.state = .running → s.cntC = 0 → s.fb = some m →
    (∀ i < s.fbLen.toNat, m.readWord (wordStride s.cfg) i = 0) →
    ∃ t u : State, runPeriods k s = .next t ∧ runPeriods 1 t = .next u ∧
      u.portTrace = s.clrW :: 0 :: s.setW :: t.portTrace

/-- Painting (R108, R123): executed one after another, ENCRGB of every LED of a configured block puts each LED's colour where R102
says, whatever the buffer held, and changes nothing but FB and the returned result. FILL, CLEAR, TESTPAT and the Calm tick are
this with their own colours; CLEAR makes every word MARK. That these are lists of HOST operations is log entry 20. -/
def Obligations.PaintingPaintsEveryLed : Prop :=
  ∀ (s : State) (color : Nat → Color), Inv s → s.state = .running ∨ s.state = .stopped →
    (∃ m : Memory, runOps (paintAll s.ledCount.toNat color) s = .next { s with fb := some m, result := .none } ∧
      ∀ i < s.ledCount.toNat, ∀ k < 8,
        m.readWord (wordStride s.cfg) (wordIndex i 0 k) = (if ((color i).g >>> 4).getLsbD k then 0 else s.mark) ∧
        m.readWord (wordStride s.cfg) (wordIndex i 1 k) = (if ((color i).r >>> 4).getLsbD k then 0 else s.mark) ∧
        m.readWord (wordStride s.cfg) (wordIndex i 2 k) = (if ((color i).b >>> 4).getLsbD k then 0 else s.mark)) ∧
    (∃ m : Memory, runOps (clear s.ledCount.toNat) s = .next { s with fb := some m, result := .none } ∧
      ∀ j < s.fbLen.toNat, m.readWord (wordStride s.cfg) j = s.mark)

/-- Every access stays inside the buffer (`20_memory.md` R62, R64, `41_sequencer.md` R146): from a state that meets the invariant no
step, under no schedule, ends in the model's own fault noSuchWord; it gives a next state or is refused. The step is refused only
where the spec refuses a HOST operation: with no operation at the head of the schedule it gives a next state. The fault and the
schedule are the model's own (log entries 17, 8). -/
def Obligations.StepNeverFaults : Prop :=
  (∀ (s : State) (e : Fault), Inv s → step s ≠ .fault e) ∧
  (∀ s : State, Inv s → (∀ f, s.inbox.head? ≠ some (.op f) ∧ s.inbox.head? ≠ some (.split f)) → ∃ t, step s = .next t)
end

