-- ==== Sys2Proof/Laws/State.lean ====
section
/-! SUPPORT. Every field after every update of the state by a shared operation: one lemma per field per update, true by
definition, so that no later proof unfolds a record update. -/

namespace Sys2Proof.Machine

/-! ### portWrite -/

@[simp] theorem portWrite_state (v : PortWord) (s : State) : (portWrite v s).state = s.state := rfl
@[simp] theorem portWrite_fault (v : PortWord) (s : State) : (portWrite v s).fault = s.fault := rfl
@[simp] theorem portWrite_ledCount (v : PortWord) (s : State) : (portWrite v s).ledCount = s.ledCount := rfl
@[simp] theorem portWrite_portSel (v : PortWord) (s : State) : (portWrite v s).portSel = s.portSel := rfl
@[simp] theorem portWrite_pinMask (v : PortWord) (s : State) : (portWrite v s).pinMask = s.pinMask := rfl
@[simp] theorem portWrite_setW (v : PortWord) (s : State) : (portWrite v s).setW = s.setW := rfl
@[simp] theorem portWrite_clrW (v : PortWord) (s : State) : (portWrite v s).clrW = s.clrW := rfl
@[simp] theorem portWrite_mark (v : PortWord) (s : State) : (portWrite v s).mark = s.mark := rfl
@[simp] theorem portWrite_fbBase (v : PortWord) (s : State) : (portWrite v s).fbBase = s.fbBase := rfl
@[simp] theorem portWrite_fbLen (v : PortWord) (s : State) : (portWrite v s).fbLen = s.fbLen := rfl
@[simp] theorem portWrite_pos (v : PortWord) (s : State) : (portWrite v s).pos = s.pos := rfl
@[simp] theorem portWrite_en (v : PortWord) (s : State) : (portWrite v s).en = s.en := rfl
@[simp] theorem portWrite_armE (v : PortWord) (s : State) : (portWrite v s).armE = s.armE := rfl
@[simp] theorem portWrite_armL (v : PortWord) (s : State) : (portWrite v s).armL = s.armL := rfl
@[simp] theorem portWrite_cntC (v : PortWord) (s : State) : (portWrite v s).cntC = s.cntC := rfl
@[simp] theorem portWrite_cntE (v : PortWord) (s : State) : (portWrite v s).cntE = s.cntE := rfl
@[simp] theorem portWrite_cntL (v : PortWord) (s : State) : (portWrite v s).cntL = s.cntL := rfl
@[simp] theorem portWrite_fb (v : PortWord) (s : State) : (portWrite v s).fb = s.fb := rfl
@[simp] theorem portWrite_out (v : PortWord) (s : State) : (portWrite v s).out = sparseSet s.out s.portSel (portEffect v (latch s s.portSel)) := rfl
@[simp] theorem portWrite_cfg (v : PortWord) (s : State) : (portWrite v s).cfg = s.cfg := rfl
@[simp] theorem portWrite_result (v : PortWord) (s : State) : (portWrite v s).result = s.result := rfl
@[simp] theorem portWrite_raised (v : PortWord) (s : State) : (portWrite v s).raised = s.raised := rfl
@[simp] theorem portWrite_portTrace (v : PortWord) (s : State) : (portWrite v s).portTrace = v :: s.portTrace := rfl
@[simp] theorem portWrite_inbox (v : PortWord) (s : State) : (portWrite v s).inbox = s.inbox := rfl
@[simp] theorem portWrite_pendingWrites (v : PortWord) (s : State) : (portWrite v s).pendingWrites = s.pendingWrites := rfl
@[simp] theorem portWrite_draws (v : PortWord) (s : State) : (portWrite v s).draws = s.draws := rfl
@[simp] theorem portWrite_allocAnswers (v : PortWord) (s : State) : (portWrite v s).allocAnswers = s.allocAnswers := rfl

/-! ### othersWrite -/

@[simp] theorem othersWrite_state (port : PortId) (v : Word) (s : State) : (othersWrite port v s).state = s.state := rfl
@[simp] theorem othersWrite_fault (port : PortId) (v : Word) (s : State) : (othersWrite port v s).fault = s.fault := rfl
@[simp] theorem othersWrite_ledCount (port : PortId) (v : Word) (s : State) : (othersWrite port v s).ledCount = s.ledCount := rfl
@[simp] theorem othersWrite_portSel (port : PortId) (v : Word) (s : State) : (othersWrite port v s).portSel = s.portSel := rfl
@[simp] theorem othersWrite_pinMask (port : PortId) (v : Word) (s : State) : (othersWrite port v s).pinMask = s.pinMask := rfl
@[simp] theorem othersWrite_setW (port : PortId) (v : Word) (s : State) : (othersWrite port v s).setW = s.setW := rfl
@[simp] theorem othersWrite_clrW (port : PortId) (v : Word) (s : State) : (othersWrite port v s).clrW = s.clrW := rfl
@[simp] theorem othersWrite_mark (port : PortId) (v : Word) (s : State) : (othersWrite port v s).mark = s.mark := rfl
@[simp] theorem othersWrite_fbBase (port : PortId) (v : Word) (s : State) : (othersWrite port v s).fbBase = s.fbBase := rfl
@[simp] theorem othersWrite_fbLen (port : PortId) (v : Word) (s : State) : (othersWrite port v s).fbLen = s.fbLen := rfl
@[simp] theorem othersWrite_pos (port : PortId) (v : Word) (s : State) : (othersWrite port v s).pos = s.pos := rfl
@[simp] theorem othersWrite_en (port : PortId) (v : Word) (s : State) : (othersWrite port v s).en = s.en := rfl
@[simp] theorem othersWrite_armE (port : PortId) (v : Word) (s : State) : (othersWrite port v s).armE = s.armE := rfl
@[simp] theorem othersWrite_armL (port : PortId) (v : Word) (s : State) : (othersWrite port v s).armL = s.armL := rfl
@[simp] theorem othersWrite_cntC (port : PortId) (v : Word) (s : State) : (othersWrite port v s).cntC = s.cntC := rfl
@[simp] theorem othersWrite_cntE (port : PortId) (v : Word) (s : State) : (othersWrite port v s).cntE = s.cntE := rfl
@[simp] theorem othersWrite_cntL (port : PortId) (v : Word) (s : State) : (othersWrite port v s).cntL = s.cntL := rfl
@[simp] theorem othersWrite_fb (port : PortId) (v : Word) (s : State) : (othersWrite port v s).fb = s.fb := rfl
@[simp] theorem othersWrite_out (port : PortId) (v : Word) (s : State) : (othersWrite port v s).out = sparseSet s.out port ((latch s port &&& drivenPins s port) ||| (v &&& ~~~(drivenPins s port))) := rfl
@[simp] theorem othersWrite_cfg (port : PortId) (v : Word) (s : State) : (othersWrite port v s).cfg = s.cfg := rfl
@[simp] theorem othersWrite_result (port : PortId) (v : Word) (s : State) : (othersWrite port v s).result = s.result := rfl
@[simp] theorem othersWrite_raised (port : PortId) (v : Word) (s : State) : (othersWrite port v s).raised = s.raised := rfl
@[simp] theorem othersWrite_portTrace (port : PortId) (v : Word) (s : State) : (othersWrite port v s).portTrace = s.portTrace := rfl
@[simp] theorem othersWrite_inbox (port : PortId) (v : Word) (s : State) : (othersWrite port v s).inbox = s.inbox := rfl
@[simp] theorem othersWrite_pendingWrites (port : PortId) (v : Word) (s : State) : (othersWrite port v s).pendingWrites = s.pendingWrites := rfl
@[simp] theorem othersWrite_draws (port : PortId) (v : Word) (s : State) : (othersWrite port v s).draws = s.draws := rfl
@[simp] theorem othersWrite_allocAnswers (port : PortId) (v : Word) (s : State) : (othersWrite port v s).allocAnswers = s.allocAnswers := rfl

/-! ### takeFault -/

@[simp] theorem takeFault_state (r : Raise) (s : State) : (takeFault r s).state = (if r.halts then .halted else s.state) := rfl
@[simp] theorem takeFault_fault (r : Raise) (s : State) : (takeFault r s).fault = stickyFault s.fault r.code := rfl
@[simp] theorem takeFault_ledCount (r : Raise) (s : State) : (takeFault r s).ledCount = s.ledCount := rfl
@[simp] theorem takeFault_portSel (r : Raise) (s : State) : (takeFault r s).portSel = s.portSel := rfl
@[simp] theorem takeFault_pinMask (r : Raise) (s : State) : (takeFault r s).pinMask = s.pinMask := rfl
@[simp] theorem takeFault_setW (r : Raise) (s : State) : (takeFault r s).setW = s.setW := rfl
@[simp] theorem takeFault_clrW (r : Raise) (s : State) : (takeFault r s).clrW = s.clrW := rfl
@[simp] theorem takeFault_mark (r : Raise) (s : State) : (takeFault r s).mark = s.mark := rfl
@[simp] theorem takeFault_fbBase (r : Raise) (s : State) : (takeFault r s).fbBase = s.fbBase := rfl
@[simp] theorem takeFault_fbLen (r : Raise) (s : State) : (takeFault r s).fbLen = s.fbLen := rfl
@[simp] theorem takeFault_pos (r : Raise) (s : State) : (takeFault r s).pos = s.pos := rfl
@[simp] theorem takeFault_en (r : Raise) (s : State) : (takeFault r s).en = (if r.endsPlayback then false else s.en) := rfl
@[simp] theorem takeFault_armE (r : Raise) (s : State) : (takeFault r s).armE = (if r.endsPlayback then false else s.armE) := rfl
@[simp] theorem takeFault_armL (r : Raise) (s : State) : (takeFault r s).armL = (if r.endsPlayback then false else s.armL) := rfl
@[simp] theorem takeFault_cntC (r : Raise) (s : State) : (takeFault r s).cntC = s.cntC := rfl
@[simp] theorem takeFault_cntE (r : Raise) (s : State) : (takeFault r s).cntE = s.cntE := rfl
@[simp] theorem takeFault_cntL (r : Raise) (s : State) : (takeFault r s).cntL = s.cntL := rfl
@[simp] theorem takeFault_fb (r : Raise) (s : State) : (takeFault r s).fb = s.fb := rfl
@[simp] theorem takeFault_out (r : Raise) (s : State) : (takeFault r s).out = s.out := rfl
@[simp] theorem takeFault_cfg (r : Raise) (s : State) : (takeFault r s).cfg = s.cfg := rfl
@[simp] theorem takeFault_result (r : Raise) (s : State) : (takeFault r s).result = s.result := rfl
@[simp] theorem takeFault_raised (r : Raise) (s : State) : (takeFault r s).raised = some r := rfl
@[simp] theorem takeFault_portTrace (r : Raise) (s : State) : (takeFault r s).portTrace = s.portTrace := rfl
@[simp] theorem takeFault_inbox (r : Raise) (s : State) : (takeFault r s).inbox = s.inbox := rfl
@[simp] theorem takeFault_pendingWrites (r : Raise) (s : State) : (takeFault r s).pendingWrites = s.pendingWrites := rfl
@[simp] theorem takeFault_draws (r : Raise) (s : State) : (takeFault r s).draws = s.draws := rfl
@[simp] theorem takeFault_allocAnswers (r : Raise) (s : State) : (takeFault r s).allocAnswers = s.allocAnswers := rfl

/-! ### returning -/

@[simp] theorem returning_state (r : Result) (s : State) : (returning r s).state = s.state := rfl
@[simp] theorem returning_fault (r : Result) (s : State) : (returning r s).fault = s.fault := rfl
@[simp] theorem returning_ledCount (r : Result) (s : State) : (returning r s).ledCount = s.ledCount := rfl
@[simp] theorem returning_portSel (r : Result) (s : State) : (returning r s).portSel = s.portSel := rfl
@[simp] theorem returning_pinMask (r : Result) (s : State) : (returning r s).pinMask = s.pinMask := rfl
@[simp] theorem returning_setW (r : Result) (s : State) : (returning r s).setW = s.setW := rfl
@[simp] theorem returning_clrW (r : Result) (s : State) : (returning r s).clrW = s.clrW := rfl
@[simp] theorem returning_mark (r : Result) (s : State) : (returning r s).mark = s.mark := rfl
@[simp] theorem returning_fbBase (r : Result) (s : State) : (returning r s).fbBase = s.fbBase := rfl
@[simp] theorem returning_fbLen (r : Result) (s : State) : (returning r s).fbLen = s.fbLen := rfl
@[simp] theorem returning_pos (r : Result) (s : State) : (returning r s).pos = s.pos := rfl
@[simp] theorem returning_en (r : Result) (s : State) : (returning r s).en = s.en := rfl
@[simp] theorem returning_armE (r : Result) (s : State) : (returning r s).armE = s.armE := rfl
@[simp] theorem returning_armL (r : Result) (s : State) : (returning r s).armL = s.armL := rfl
@[simp] theorem returning_cntC (r : Result) (s : State) : (returning r s).cntC = s.cntC := rfl
@[simp] theorem returning_cntE (r : Result) (s : State) : (returning r s).cntE = s.cntE := rfl
@[simp] theorem returning_cntL (r : Result) (s : State) : (returning r s).cntL = s.cntL := rfl
@[simp] theorem returning_fb (r : Result) (s : State) : (returning r s).fb = s.fb := rfl
@[simp] theorem returning_out (r : Result) (s : State) : (returning r s).out = s.out := rfl
@[simp] theorem returning_cfg (r : Result) (s : State) : (returning r s).cfg = s.cfg := rfl
@[simp] theorem returning_result (r : Result) (s : State) : (returning r s).result = r := rfl
@[simp] theorem returning_raised (r : Result) (s : State) : (returning r s).raised = s.raised := rfl
@[simp] theorem returning_portTrace (r : Result) (s : State) : (returning r s).portTrace = s.portTrace := rfl
@[simp] theorem returning_inbox (r : Result) (s : State) : (returning r s).inbox = s.inbox := rfl
@[simp] theorem returning_pendingWrites (r : Result) (s : State) : (returning r s).pendingWrites = s.pendingWrites := rfl
@[simp] theorem returning_draws (r : Result) (s : State) : (returning r s).draws = s.draws := rfl
@[simp] theorem returning_allocAnswers (r : Result) (s : State) : (returning r s).allocAnswers = s.allocAnswers := rfl

/-! ### startSequence -/

@[simp] theorem startSequence_state (s : State) : (startSequence s).state = s.state := rfl
@[simp] theorem startSequence_fault (s : State) : (startSequence s).fault = s.fault := rfl
@[simp] theorem startSequence_ledCount (s : State) : (startSequence s).ledCount = s.ledCount := rfl
@[simp] theorem startSequence_portSel (s : State) : (startSequence s).portSel = s.portSel := rfl
@[simp] theorem startSequence_pinMask (s : State) : (startSequence s).pinMask = s.pinMask := rfl
@[simp] theorem startSequence_setW (s : State) : (startSequence s).setW = s.setW := rfl
@[simp] theorem startSequence_clrW (s : State) : (startSequence s).clrW = s.clrW := rfl
@[simp] theorem startSequence_mark (s : State) : (startSequence s).mark = s.mark := rfl
@[simp] theorem startSequence_fbBase (s : State) : (startSequence s).fbBase = s.fbBase := rfl
@[simp] theorem startSequence_fbLen (s : State) : (startSequence s).fbLen = s.fbLen := rfl
@[simp] theorem startSequence_pos (s : State) : (startSequence s).pos = 0 := rfl
@[simp] theorem startSequence_en (s : State) : (startSequence s).en = true := rfl
@[simp] theorem startSequence_armE (s : State) : (startSequence s).armE = true := rfl
@[simp] theorem startSequence_armL (s : State) : (startSequence s).armL = true := rfl
@[simp] theorem startSequence_cntC (s : State) : (startSequence s).cntC = 0 := rfl
@[simp] theorem startSequence_cntE (s : State) : (startSequence s).cntE = phaseE s.cfg := rfl
@[simp] theorem startSequence_cntL (s : State) : (startSequence s).cntL = phaseL s.cfg := rfl
@[simp] theorem startSequence_fb (s : State) : (startSequence s).fb = s.fb := rfl
@[simp] theorem startSequence_out (s : State) : (startSequence s).out = s.out := rfl
@[simp] theorem startSequence_cfg (s : State) : (startSequence s).cfg = s.cfg := rfl
@[simp] theorem startSequence_result (s : State) : (startSequence s).result = s.result := rfl
@[simp] theorem startSequence_raised (s : State) : (startSequence s).raised = s.raised := rfl
@[simp] theorem startSequence_portTrace (s : State) : (startSequence s).portTrace = s.portTrace := rfl
@[simp] theorem startSequence_inbox (s : State) : (startSequence s).inbox = s.inbox := rfl
@[simp] theorem startSequence_pendingWrites (s : State) : (startSequence s).pendingWrites = s.pendingWrites := rfl
@[simp] theorem startSequence_draws (s : State) : (startSequence s).draws = s.draws := rfl
@[simp] theorem startSequence_allocAnswers (s : State) : (startSequence s).allocAnswers = s.allocAnswers := rfl

/-! ### startPlayback -/

@[simp] theorem startPlayback_state (s : State) : (startPlayback s).state = .running := rfl
@[simp] theorem startPlayback_fault (s : State) : (startPlayback s).fault = s.fault := rfl
@[simp] theorem startPlayback_ledCount (s : State) : (startPlayback s).ledCount = s.ledCount := rfl
@[simp] theorem startPlayback_portSel (s : State) : (startPlayback s).portSel = s.portSel := rfl
@[simp] theorem startPlayback_pinMask (s : State) : (startPlayback s).pinMask = s.pinMask := rfl
@[simp] theorem startPlayback_setW (s : State) : (startPlayback s).setW = s.setW := rfl
@[simp] theorem startPlayback_clrW (s : State) : (startPlayback s).clrW = s.clrW := rfl
@[simp] theorem startPlayback_mark (s : State) : (startPlayback s).mark = s.mark := rfl
@[simp] theorem startPlayback_fbBase (s : State) : (startPlayback s).fbBase = s.fbBase := rfl
@[simp] theorem startPlayback_fbLen (s : State) : (startPlayback s).fbLen = s.fbLen := rfl
@[simp] theorem startPlayback_pos (s : State) : (startPlayback s).pos = 0 := rfl
@[simp] theorem startPlayback_en (s : State) : (startPlayback s).en = true := rfl
@[simp] theorem startPlayback_armE (s : State) : (startPlayback s).armE = true := rfl
@[simp] theorem startPlayback_armL (s : State) : (startPlayback s).armL = true := rfl
@[simp] theorem startPlayback_cntC (s : State) : (startPlayback s).cntC = 0 := rfl
@[simp] theorem startPlayback_cntE (s : State) : (startPlayback s).cntE = phaseE s.cfg := rfl
@[simp] theorem startPlayback_cntL (s : State) : (startPlayback s).cntL = phaseL s.cfg := rfl
@[simp] theorem startPlayback_fb (s : State) : (startPlayback s).fb = s.fb := rfl
@[simp] theorem startPlayback_out (s : State) : (startPlayback s).out = s.out := rfl
@[simp] theorem startPlayback_cfg (s : State) : (startPlayback s).cfg = s.cfg := rfl
@[simp] theorem startPlayback_result (s : State) : (startPlayback s).result = s.result := rfl
@[simp] theorem startPlayback_raised (s : State) : (startPlayback s).raised = s.raised := rfl
@[simp] theorem startPlayback_portTrace (s : State) : (startPlayback s).portTrace = s.portTrace := rfl
@[simp] theorem startPlayback_inbox (s : State) : (startPlayback s).inbox = s.inbox := rfl
@[simp] theorem startPlayback_pendingWrites (s : State) : (startPlayback s).pendingWrites = s.pendingWrites := rfl
@[simp] theorem startPlayback_draws (s : State) : (startPlayback s).draws = s.draws := rfl
@[simp] theorem startPlayback_allocAnswers (s : State) : (startPlayback s).allocAnswers = s.allocAnswers := rfl

/-! ### advancePos -/

@[simp] theorem advancePos_state (s : State) : (advancePos s).state = s.state := rfl
@[simp] theorem advancePos_fault (s : State) : (advancePos s).fault = s.fault := rfl
@[simp] theorem advancePos_ledCount (s : State) : (advancePos s).ledCount = s.ledCount := rfl
@[simp] theorem advancePos_portSel (s : State) : (advancePos s).portSel = s.portSel := rfl
@[simp] theorem advancePos_pinMask (s : State) : (advancePos s).pinMask = s.pinMask := rfl
@[simp] theorem advancePos_setW (s : State) : (advancePos s).setW = s.setW := rfl
@[simp] theorem advancePos_clrW (s : State) : (advancePos s).clrW = s.clrW := rfl
@[simp] theorem advancePos_mark (s : State) : (advancePos s).mark = s.mark := rfl
@[simp] theorem advancePos_fbBase (s : State) : (advancePos s).fbBase = s.fbBase := rfl
@[simp] theorem advancePos_fbLen (s : State) : (advancePos s).fbLen = s.fbLen := rfl
@[simp] theorem advancePos_pos (s : State) : (advancePos s).pos = BitVec.ofNat 16 ((s.pos.toNat + 1) % s.fbLen.toNat) := rfl
@[simp] theorem advancePos_en (s : State) : (advancePos s).en = s.en := rfl
@[simp] theorem advancePos_armE (s : State) : (advancePos s).armE = s.armE := rfl
@[simp] theorem advancePos_armL (s : State) : (advancePos s).armL = s.armL := rfl
@[simp] theorem advancePos_cntC (s : State) : (advancePos s).cntC = s.cntC := rfl
@[simp] theorem advancePos_cntE (s : State) : (advancePos s).cntE = s.cntE := rfl
@[simp] theorem advancePos_cntL (s : State) : (advancePos s).cntL = s.cntL := rfl
@[simp] theorem advancePos_fb (s : State) : (advancePos s).fb = s.fb := rfl
@[simp] theorem advancePos_out (s : State) : (advancePos s).out = s.out := rfl
@[simp] theorem advancePos_cfg (s : State) : (advancePos s).cfg = s.cfg := rfl
@[simp] theorem advancePos_result (s : State) : (advancePos s).result = s.result := rfl
@[simp] theorem advancePos_raised (s : State) : (advancePos s).raised = s.raised := rfl
@[simp] theorem advancePos_portTrace (s : State) : (advancePos s).portTrace = s.portTrace := rfl
@[simp] theorem advancePos_inbox (s : State) : (advancePos s).inbox = s.inbox := rfl
@[simp] theorem advancePos_pendingWrites (s : State) : (advancePos s).pendingWrites = s.pendingWrites := rfl
@[simp] theorem advancePos_draws (s : State) : (advancePos s).draws = s.draws := rfl
@[simp] theorem advancePos_allocAnswers (s : State) : (advancePos s).allocAnswers = s.allocAnswers := rfl

/-! ### afterDraw -/

@[simp] theorem afterDraw_state (s : State) : (afterDraw s).state = s.state := rfl
@[simp] theorem afterDraw_fault (s : State) : (afterDraw s).fault = s.fault := rfl
@[simp] theorem afterDraw_ledCount (s : State) : (afterDraw s).ledCount = s.ledCount := rfl
@[simp] theorem afterDraw_portSel (s : State) : (afterDraw s).portSel = s.portSel := rfl
@[simp] theorem afterDraw_pinMask (s : State) : (afterDraw s).pinMask = s.pinMask := rfl
@[simp] theorem afterDraw_setW (s : State) : (afterDraw s).setW = s.setW := rfl
@[simp] theorem afterDraw_clrW (s : State) : (afterDraw s).clrW = s.clrW := rfl
@[simp] theorem afterDraw_mark (s : State) : (afterDraw s).mark = s.mark := rfl
@[simp] theorem afterDraw_fbBase (s : State) : (afterDraw s).fbBase = s.fbBase := rfl
@[simp] theorem afterDraw_fbLen (s : State) : (afterDraw s).fbLen = s.fbLen := rfl
@[simp] theorem afterDraw_pos (s : State) : (afterDraw s).pos = s.pos := rfl
@[simp] theorem afterDraw_en (s : State) : (afterDraw s).en = s.en := rfl
@[simp] theorem afterDraw_armE (s : State) : (afterDraw s).armE = s.armE := rfl
@[simp] theorem afterDraw_armL (s : State) : (afterDraw s).armL = s.armL := rfl
@[simp] theorem afterDraw_cntC (s : State) : (afterDraw s).cntC = s.cntC := rfl
@[simp] theorem afterDraw_cntE (s : State) : (afterDraw s).cntE = s.cntE := rfl
@[simp] theorem afterDraw_cntL (s : State) : (afterDraw s).cntL = s.cntL := rfl
@[simp] theorem afterDraw_fb (s : State) : (afterDraw s).fb = s.fb := rfl
@[simp] theorem afterDraw_out (s : State) : (afterDraw s).out = s.out := rfl
@[simp] theorem afterDraw_cfg (s : State) : (afterDraw s).cfg = s.cfg := rfl
@[simp] theorem afterDraw_result (s : State) : (afterDraw s).result = s.result := rfl
@[simp] theorem afterDraw_raised (s : State) : (afterDraw s).raised = s.raised := rfl
@[simp] theorem afterDraw_portTrace (s : State) : (afterDraw s).portTrace = s.portTrace := rfl
@[simp] theorem afterDraw_inbox (s : State) : (afterDraw s).inbox = s.inbox := rfl
@[simp] theorem afterDraw_pendingWrites (s : State) : (afterDraw s).pendingWrites = s.pendingWrites := rfl
@[simp] theorem afterDraw_draws (s : State) : (afterDraw s).draws = s.draws + 1 := rfl
@[simp] theorem afterDraw_allocAnswers (s : State) : (afterDraw s).allocAnswers = s.allocAnswers.tail := rfl

/-! ### configure -/

@[simp] theorem configure_state (n : Nat) (port : PortId) (mask : Word) (h : Handle) (s : State) : (configure n port mask h s).state = s.state := rfl
@[simp] theorem configure_fault (n : Nat) (port : PortId) (mask : Word) (h : Handle) (s : State) : (configure n port mask h s).fault = s.fault := rfl
@[simp] theorem configure_ledCount (n : Nat) (port : PortId) (mask : Word) (h : Handle) (s : State) : (configure n port mask h s).ledCount = BitVec.ofNat 16 n := rfl
@[simp] theorem configure_portSel (n : Nat) (port : PortId) (mask : Word) (h : Handle) (s : State) : (configure n port mask h s).portSel = port := rfl
@[simp] theorem configure_pinMask (n : Nat) (port : PortId) (mask : Word) (h : Handle) (s : State) : (configure n port mask h s).pinMask = mask := rfl
@[simp] theorem configure_setW (n : Nat) (port : PortId) (mask : Word) (h : Handle) (s : State) : (configure n port mask h s).setW = setWordOf mask := rfl
@[simp] theorem configure_clrW (n : Nat) (port : PortId) (mask : Word) (h : Handle) (s : State) : (configure n port mask h s).clrW = clearWordOf mask := rfl
@[simp] theorem configure_mark (n : Nat) (port : PortId) (mask : Word) (h : Handle) (s : State) : (configure n port mask h s).mark = markOf s.cfg.wordBits mask := rfl
@[simp] theorem configure_fbBase (n : Nat) (port : PortId) (mask : Word) (h : Handle) (s : State) : (configure n port mask h s).fbBase = h := rfl
@[simp] theorem configure_fbLen (n : Nat) (port : PortId) (mask : Word) (h : Handle) (s : State) : (configure n port mask h s).fbLen = BitVec.ofNat 16 (frameLength n) := rfl
@[simp] theorem configure_pos (n : Nat) (port : PortId) (mask : Word) (h : Handle) (s : State) : (configure n port mask h s).pos = s.pos := rfl
@[simp] theorem configure_en (n : Nat) (port : PortId) (mask : Word) (h : Handle) (s : State) : (configure n port mask h s).en = s.en := rfl
@[simp] theorem configure_armE (n : Nat) (port : PortId) (mask : Word) (h : Handle) (s : State) : (configure n port mask h s).armE = s.armE := rfl
@[simp] theorem configure_armL (n : Nat) (port : PortId) (mask : Word) (h : Handle) (s : State) : (configure n port mask h s).armL = s.armL := rfl
@[simp] theorem configure_cntC (n : Nat) (port : PortId) (mask : Word) (h : Handle) (s : State) : (configure n port mask h s).cntC = s.cntC := rfl
@[simp] theorem configure_cntE (n : Nat) (port : PortId) (mask : Word) (h : Handle) (s : State) : (configure n port mask h s).cntE = s.cntE := rfl
@[simp] theorem configure_cntL (n : Nat) (port : PortId) (mask : Word) (h : Handle) (s : State) : (configure n port mask h s).cntL = s.cntL := rfl
@[simp] theorem configure_fb (n : Nat) (port : PortId) (mask : Word) (h : Handle) (s : State) : (configure n port mask h s).fb = some [] := rfl
@[simp] theorem configure_out (n : Nat) (port : PortId) (mask : Word) (h : Handle) (s : State) : (configure n port mask h s).out = s.out := rfl
@[simp] theorem configure_cfg (n : Nat) (port : PortId) (mask : Word) (h : Handle) (s : State) : (configure n port mask h s).cfg = s.cfg := rfl
@[simp] theorem configure_result (n : Nat) (port : PortId) (mask : Word) (h : Handle) (s : State) : (configure n port mask h s).result = s.result := rfl
@[simp] theorem configure_raised (n : Nat) (port : PortId) (mask : Word) (h : Handle) (s : State) : (configure n port mask h s).raised = s.raised := rfl
@[simp] theorem configure_portTrace (n : Nat) (port : PortId) (mask : Word) (h : Handle) (s : State) : (configure n port mask h s).portTrace = s.portTrace := rfl
@[simp] theorem configure_inbox (n : Nat) (port : PortId) (mask : Word) (h : Handle) (s : State) : (configure n port mask h s).inbox = s.inbox := rfl
@[simp] theorem configure_pendingWrites (n : Nat) (port : PortId) (mask : Word) (h : Handle) (s : State) : (configure n port mask h s).pendingWrites = s.pendingWrites := rfl
@[simp] theorem configure_draws (n : Nat) (port : PortId) (mask : Word) (h : Handle) (s : State) : (configure n port mask h s).draws = s.draws := rfl
@[simp] theorem configure_allocAnswers (n : Nat) (port : PortId) (mask : Word) (h : Handle) (s : State) : (configure n port mask h s).allocAnswers = s.allocAnswers := rfl

/-! ### advanceCounters: every field but the counters -/

@[simp] theorem advanceCounters_state (s : State) : (advanceCounters s).state = s.state := by
  unfold advanceCounters; split <;> rfl
@[simp] theorem advanceCounters_fault (s : State) : (advanceCounters s).fault = s.fault := by
  unfold advanceCounters; split <;> rfl
@[simp] theorem advanceCounters_ledCount (s : State) : (advanceCounters s).ledCount = s.ledCount := by
  unfold advanceCounters; split <;> rfl
@[simp] theorem advanceCounters_portSel (s : State) : (advanceCounters s).portSel = s.portSel := by
  unfold advanceCounters; split <;> rfl
@[simp] theorem advanceCounters_pinMask (s : State) : (advanceCounters s).pinMask = s.pinMask := by
  unfold advanceCounters; split <;> rfl
@[simp] theorem advanceCounters_setW (s : State) : (advanceCounters s).setW = s.setW := by
  unfold advanceCounters; split <;> rfl
@[simp] theorem advanceCounters_clrW (s : State) : (advanceCounters s).clrW = s.clrW := by
  unfold advanceCounters; split <;> rfl
@[simp] theorem advanceCounters_mark (s : State) : (advanceCounters s).mark = s.mark := by
  unfold advanceCounters; split <;> rfl
@[simp] theorem advanceCounters_fbBase (s : State) : (advanceCounters s).fbBase = s.fbBase := by
  unfold advanceCounters; split <;> rfl
@[simp] theorem advanceCounters_fbLen (s : State) : (advanceCounters s).fbLen = s.fbLen := by
  unfold advanceCounters; split <;> rfl
@[simp] theorem advanceCounters_pos (s : State) : (advanceCounters s).pos = s.pos := by
  unfold advanceCounters; split <;> rfl
@[simp] theorem advanceCounters_en (s : State) : (advanceCounters s).en = s.en := by
  unfold advanceCounters; split <;> rfl
@[simp] theorem advanceCounters_armE (s : State) : (advanceCounters s).armE = s.armE := by
  unfold advanceCounters; split <;> rfl
@[simp] theorem advanceCounters_armL (s : State) : (advanceCounters s).armL = s.armL := by
  unfold advanceCounters; split <;> rfl
@[simp] theorem advanceCounters_fb (s : State) : (advanceCounters s).fb = s.fb := by
  unfold advanceCounters; split <;> rfl
@[simp] theorem advanceCounters_out (s : State) : (advanceCounters s).out = s.out := by
  unfold advanceCounters; split <;> rfl
@[simp] theorem advanceCounters_cfg (s : State) : (advanceCounters s).cfg = s.cfg := by
  unfold advanceCounters; split <;> rfl
@[simp] theorem advanceCounters_result (s : State) : (advanceCounters s).result = s.result := by
  unfold advanceCounters; split <;> rfl
@[simp] theorem advanceCounters_raised (s : State) : (advanceCounters s).raised = s.raised := by
  unfold advanceCounters; split <;> rfl
@[simp] theorem advanceCounters_portTrace (s : State) : (advanceCounters s).portTrace = s.portTrace := by
  unfold advanceCounters; split <;> rfl
@[simp] theorem advanceCounters_inbox (s : State) : (advanceCounters s).inbox = s.inbox := by
  unfold advanceCounters; split <;> rfl
@[simp] theorem advanceCounters_pendingWrites (s : State) : (advanceCounters s).pendingWrites = s.pendingWrites := by
  unfold advanceCounters; split <;> rfl
@[simp] theorem advanceCounters_draws (s : State) : (advanceCounters s).draws = s.draws := by
  unfold advanceCounters; split <;> rfl
@[simp] theorem advanceCounters_allocAnswers (s : State) : (advanceCounters s).allocAnswers = s.allocAnswers := by
  unfold advanceCounters; split <;> rfl

/-- The counters after a tick of a block whose three sources run (`41_sequencer.md` R158). -/
theorem advanceCounters_of_running (s : State) (hC : s.en = true) (hE : s.armE = true) (hL : s.armL = true) :
    (advanceCounters s).cntC = (s.cntC + 1) % s.cfg.p ∧ (advanceCounters s).cntE = (s.cntE + 1) % s.cfg.p ∧
      (advanceCounters s).cntL = (s.cntL + 1) % s.cfg.p := by
  simp [advanceCounters, hC, hE, hL]

/-- Counters of a stopped cadence source do not move (`10_state.md` R31). -/
theorem advanceCounters_of_not_en (s : State) (h : s.en = false) : advanceCounters s = s := by
  simp [advanceCounters, h]

end Sys2Proof.Machine
end

