-- ==== Sys2Proof/Laws/Ops.lean ====
section
/-! SUPPORT. What each shared operation can do, said once: sparse storage and its canonical form, the frame buffer's accesses,
the port write, the sequence of two steps. -/

namespace Sys2Proof.Machine

/-! ### Going on from a next state -/

@[simp] theorem andThen_next (s : State) (k : State → Answer) : andThen (.next s) k = k s := rfl
@[simp] theorem andThen_fault (e : Fault) (k : State → Answer) : andThen (.fault e) k = .fault e := rfl
@[simp] theorem andThen_refused (e : Refusal) (k : State → Answer) : andThen (.refused e) k = .refused e := rfl

/-- A sequence that answers a next state went through one. -/
theorem next_of_andThen {r : Answer} {k : State → Answer} {t : State} (h : andThen r k = .next t) :
    ∃ s, r = .next s ∧ k s = .next t := by
  cases r with
  | next s => exact ⟨s, rfl, h⟩
  | fault e => simp at h
  | refused e => simp at h

/-! ### Sparse storage -/

section Sparse
variable {w : Nat}

theorem sparseGet_erase (m : List (Nat × BitVec w)) (k j : Nat) :
    sparseGet (sparseErase m k) j = if j = k then 0 else sparseGet m j := by
  induction m with
  | nil => simp [sparseErase, sparseGet]
  | cons c rest ih =>
    obtain ⟨a, x⟩ := c
    simp only [sparseErase, sparseGet]
    split_ifs <;> simp_all [sparseGet]

theorem sparseGet_insert_other (m : List (Nat × BitVec w)) {k j : Nat} (v : BitVec w) (h : j ≠ k) :
    sparseGet (sparseInsert m k v) j = sparseGet m j := by
  induction m with
  | nil => simp [sparseInsert, sparseGet, h.symm]
  | cons c rest ih =>
    obtain ⟨a, x⟩ := c
    simp only [sparseInsert]
    split_ifs <;> simp [sparseGet, ih, h.symm]

theorem sparseGet_insert_erase (m : List (Nat × BitVec w)) (k : Nat) (v : BitVec w) :
    sparseGet (sparseInsert (sparseErase m k) k v) k = v := by
  induction m with
  | nil => simp [sparseErase, sparseInsert, sparseGet]
  | cons c rest ih =>
    obtain ⟨a, x⟩ := c
    simp only [sparseErase]
    split_ifs with h
    · exact ih
    · simp only [sparseInsert]
      split_ifs <;> simp [sparseGet, h, ih]

/-- Reading a key after a write: the written value at the written key, the old value elsewhere. Holds of every list. -/
theorem sparseGet_set (m : List (Nat × BitVec w)) (k j : Nat) (v : BitVec w) :
    sparseGet (sparseSet m k v) j = if j = k then v else sparseGet m j := by
  unfold sparseSet
  by_cases hv : v = 0
  · rw [if_pos hv, sparseGet_erase, hv]
  · rw [if_neg hv]
    by_cases hj : j = k
    · rw [if_pos hj, hj, sparseGet_insert_erase]
    · rw [if_neg hj, sparseGet_insert_other _ _ hj, sparseGet_erase, if_neg hj]

theorem sparseWfFrom_mono {lo lo' : Nat} {m : List (Nat × BitVec w)} (h : lo' ≤ lo) (hm : sparseWfFrom lo m = true) :
    sparseWfFrom lo' m = true := by
  cases m with
  | nil => rfl
  | cons c rest =>
    simp only [sparseWfFrom, Bool.and_eq_true, decide_eq_true_eq] at *
    exact ⟨⟨h.trans hm.1.1, hm.1.2⟩, hm.2⟩

theorem sparseWfFrom_erase {lo : Nat} {m : List (Nat × BitVec w)} (k : Nat) (hm : sparseWfFrom lo m = true) :
    sparseWfFrom lo (sparseErase m k) = true := by
  induction m generalizing lo with
  | nil => rfl
  | cons c rest ih =>
    obtain ⟨a, x⟩ := c
    simp only [sparseWfFrom, Bool.and_eq_true, decide_eq_true_eq] at hm
    simp only [sparseErase]
    split_ifs
    · exact sparseWfFrom_mono (by omega) (ih hm.2)
    · simp only [sparseWfFrom, Bool.and_eq_true, decide_eq_true_eq]
      exact ⟨hm.1, ih hm.2⟩

theorem key_ne_of_mem_erase {m : List (Nat × BitVec w)} {k : Nat} {c : Nat × BitVec w} (h : c ∈ sparseErase m k) :
    c.1 ≠ k := by
  induction m with
  | nil => simp [sparseErase] at h
  | cons d rest ih =>
    obtain ⟨a, x⟩ := d
    simp only [sparseErase] at h
    split_ifs at h with ha
    · exact ih h
    · rcases List.mem_cons.mp h with rfl | h
      · exact ha
      · exact ih h

theorem sparseWfFrom_insert {lo : Nat} {m : List (Nat × BitVec w)} {k : Nat} {v : BitVec w} (hlo : lo ≤ k) (hv : v ≠ 0)
    (hk : ∀ c ∈ m, c.1 ≠ k) (hm : sparseWfFrom lo m = true) : sparseWfFrom lo (sparseInsert m k v) = true := by
  induction m generalizing lo with
  | nil => simpa [sparseInsert, sparseWfFrom, hlo] using hv
  | cons c rest ih =>
    obtain ⟨a, x⟩ := c
    have ha : a ≠ k := hk (a, x) (by simp)
    simp only [sparseWfFrom, Bool.and_eq_true, decide_eq_true_eq, bne_iff_ne] at hm
    simp only [sparseInsert]
    split_ifs with h
    · simp only [sparseWfFrom, Bool.and_eq_true, decide_eq_true_eq, bne_iff_ne]
      exact ⟨⟨hlo, hv⟩, ⟨by omega, hm.1.2⟩, hm.2⟩
    · simp only [sparseWfFrom, Bool.and_eq_true, decide_eq_true_eq, bne_iff_ne]
      exact ⟨hm.1, ih (by omega) (fun c hc => hk c (by simp [hc])) hm.2⟩

/-- A write keeps the canonical form. -/
theorem sparseWf_set {m : List (Nat × BitVec w)} (k : Nat) (v : BitVec w) (hm : sparseWf m = true) :
    sparseWf (sparseSet m k v) = true := by
  unfold sparseSet sparseWf at *
  split_ifs with hv
  · exact sparseWfFrom_erase k hm
  · exact sparseWfFrom_insert (Nat.zero_le k) hv (fun c hc => key_ne_of_mem_erase hc) (sparseWfFrom_erase k hm)

end Sparse

/-! ### The frame buffer -/

@[simp] theorem readByte_nil (a : Nat) : Memory.readByte [] a = 0 := rfl

/-- Every word of a buffer with nothing listed is zero (`42_lifecycle.md` R172). -/
@[simp] theorem readWord_nil (stride i : Nat) : Memory.readWord stride [] i = 0 := by
  unfold Memory.readWord
  split_ifs <;> simp

/-- Reading a byte after a byte write. -/
theorem readByte_writeByte (m : Memory) (a b : Nat) (v : Byte) :
    (m.writeByte a v).readByte b = if b = a then v else m.readByte b := sparseGet_set m a b v

/-- A byte write keeps the canonical form. -/
theorem writeByte_wf {m : Memory} (a : Nat) (v : Byte) (h : m.wf = true) : (m.writeByte a v).wf = true := sparseWf_set a v h

/-- A word write keeps the canonical form. -/
theorem writeWord_wf {m : Memory} (stride i : Nat) (w : Word) (h : m.wf = true) : (m.writeWord stride i w).wf = true := by
  unfold Memory.writeWord
  split_ifs
  · exact writeByte_wf _ _ h
  · exact writeByte_wf _ _ (writeByte_wf _ _ h)

/-- A word takes one or two bytes (`20_memory.md` R67 with WORD_BITS <= 16). -/
theorem wordStride_cases {c : Config} (h : c.wf = true) :
    (wordStride c = 1 ∧ c.wordBits ≤ 8) ∨ (wordStride c = 2 ∧ 8 < c.wordBits) := by
  simp only [Config.wf, Bool.and_eq_true, decide_eq_true_eq] at h
  unfold wordStride
  omega

/-- Everything a whole-word write can do: it answers the state with that word replaced, where the index exists, and stops
otherwise. -/
theorem memWrite_cases (i : Nat) (w : Word) (s : State) :
    (∃ m, s.fb = some m ∧ i < s.fbLen.toNat ∧
      memWrite i w s = .next { s with fb := some (m.writeWord (wordStride s.cfg) i w) }) ∨
    ((s.fb = none ∨ s.fbLen.toNat ≤ i) ∧ memWrite i w s = .fault (.noSuchWord i)) := by
  unfold memWrite
  cases hfb : s.fb with
  | none => simp
  | some m =>
    by_cases hi : i < s.fbLen.toNat
    · exact .inl ⟨m, rfl, hi, by simp [hi]⟩
    · exact .inr ⟨.inr (by omega), by simp [hi]⟩

/-- Everything a whole-word read can answer. -/
theorem memRead_eq_some {s : State} {i : Nat} {w : Word} :
    memRead s i = some w ↔ ∃ m, s.fb = some m ∧ i < s.fbLen.toNat ∧ w = m.readWord (wordStride s.cfg) i := by
  unfold memRead
  cases s.fb with
  | none => simp
  | some m => by_cases hi : i < s.fbLen.toNat <;> simp [hi, eq_comm]

/-- Whole-word writes change FB only. -/
theorem memWriteAll_frame {ws : List (Nat × Word)} {s t : State} (h : memWriteAll ws s = .next t) :
    t = { s with fb := t.fb } := by
  induction ws generalizing s with
  | nil => cases h; rfl
  | cons c rest ih =>
    obtain ⟨i, w⟩ := c
    obtain ⟨s', h1, h2⟩ := next_of_andThen h
    rcases memWrite_cases i w s with ⟨m, -, -, e⟩ | ⟨-, e⟩
    · rw [e] at h1; cases h1; rw [ih h2]
    · rw [e] at h1; cases h1

/-! ### The port -/

/-- A latch after a port write: the selected port's by the set and clear halves, every other port's unchanged. -/
theorem latch_portWrite (v : PortWord) (s : State) (port : PortId) :
    latch (portWrite v s) port = if port = s.portSel then portEffect v (latch s s.portSel) else latch s port :=
  sparseGet_set _ _ _ _

/-- A bit of a value of the combined register given by its two halves, the clear half above the set half. -/
theorem getLsbD_halves (clr set : Word) (i : Nat) :
    BitVec.getLsbD (w := 32) (clr ++ set) i = if i < 16 then set.getLsbD i else clr.getLsbD (i - 16) :=
  BitVec.getLsbD_append

/-- The set word raises the pins of its mask. -/
theorem portEffect_set (mask old : Word) : portEffect (0#16 ++ mask) old = old ||| mask := by
  apply BitVec.eq_of_getLsbD_eq
  intro i hi
  simp only [portEffect, BitVec.getLsbD_or, BitVec.getLsbD_and, BitVec.getLsbD_not, BitVec.getLsbD_extractLsb', getLsbD_halves]
  simp [hi]

/-- A word in the clear half lowers the pins of its bits. -/
theorem portEffect_clear (mask old : Word) : portEffect (mask ++ 0#16) old = old &&& ~~~mask := by
  apply BitVec.eq_of_getLsbD_eq
  intro i hi
  simp only [portEffect, BitVec.getLsbD_or, BitVec.getLsbD_and, BitVec.getLsbD_not, BitVec.getLsbD_extractLsb', getLsbD_halves]
  simp [hi]

/-- The early-reset payload is the word in the clear half (`20_memory.md` R71). -/
theorem earlyPayload_eq (w : Word) : earlyPayload w = w ++ 0#16 := by
  apply BitVec.eq_of_getLsbD_eq
  intro i hi
  rw [getLsbD_halves]
  simp only [earlyPayload, BitVec.getLsbD_shiftLeft, BitVec.getLsbD_setWidth]
  by_cases h : i < 16
  · simp [h]
  · have : i - 16 < 32 := by omega
    simp [h, hi, this]

/-- The set word of a mask is the mask in the set half (`30_encoding.md` R94, R101). -/
theorem setWordOf_eq (mask : Word) : setWordOf mask = 0#16 ++ mask := by
  apply BitVec.eq_of_getLsbD_eq
  intro i hi
  rw [getLsbD_halves]
  simp only [setWordOf, BitVec.getLsbD_setWidth]
  by_cases h : i < 16
  · simp [h, hi]
  · have : mask.getLsbD i = false := BitVec.getLsbD_of_ge _ _ (by omega)
    simp [h, this]

/-- The clear word of a mask is the mask in the clear half (`30_encoding.md` R94, R101). -/
theorem clearWordOf_eq (mask : Word) : clearWordOf mask = mask ++ 0#16 := earlyPayload_eq mask

/-- A mask that fits a timing word is its own marker (`30_encoding.md` R101). -/
theorem markOf_eq {n : Nat} {mask : Word} (h : mask.toNat < 2 ^ n) : markOf n mask = mask := by
  unfold markOf
  rw [Nat.mod_eq_of_lt h]
  simp

/-! ### Faults -/

/-- FAULT, once not zero, is kept (`10_state.md` R22). -/
theorem stickyFault_keeps {old code : BitVec 3} (h : old ≠ 0) : stickyFault old code = old := by
  exact if_neg h

/-- No fault has a reserved code (`60_exceptions.md` R211). -/
theorem raise_code_le (r : Raise) : r.code.toNat ≤ 4 := by
  cases r <;> simp [Raise.code]

end Sys2Proof.Machine
end

