-- ==== Sys2Proof/Laws/PerInstr.lean ====
section
/-! SUPPORT. A family of facts about every instruction as text: its encoding stands in the format that `opcode_table.json` gives
its row. One lemma per constructor. -/

namespace Sys2Proof.Laws.EncodesInFormat

/-- The encoded value is in the format of the instruction's row. -/
def Statement (i : Instr) : Prop := (encode i).format = i.format

theorem t1 : Statement .t1 := rfl
theorem t0 (m : Word) : Statement (.t0 m) := rfl
theorem sym (q : BitVec 4) : Statement (.sym q) := rfl
theorem init (n : BitVec 32) (port : PortId) (mask : Word) : Statement (.init n port mask) := rfl
theorem stop : Statement .stop := rfl
theorem start : Statement .start := rfl
theorem enc8 (v : Byte) : Statement (.enc8 v) := rfl
theorem encrgb (i : BitVec 16) (r g b : Byte) : Statement (.encrgb i r g b) := rfl
theorem fbwr (i : BitVec 16) (w : Word) : Statement (.fbwr i w) := rfl
theorem fbrd (i : BitVec 16) : Statement (.fbrd i) := rfl
theorem seqSet : Statement .seqSet := rfl
theorem seqEarly : Statement .seqEarly := rfl
theorem seqLate : Statement .seqLate := rfl

end Sys2Proof.Laws.EncodesInFormat
end

