-- ==== Sys2Proof/Laws/Step.lean ====
section
/-! SUPPORT. What a step and a run can do: one lemma per kind of input, and the host's run. -/

namespace Sys2Proof.Machine

/-- A host's run is its first step and then the rest. -/
theorem run_succ (M : Host.Core) (k : Nat) (x : M.State) : M.run (k + 1) x =
    (match M.step x with
      | .next y => M.run k y
      | .fault r => .fault r
      | .refused r => .refused r) := rfl

/-- The steps of this machine are the host's run of it. -/
theorem run_eq_steps (n : Nat) (s : State) : Host.Core.run Sys2Proof.core n s = steps n s := by
  induction n generalizing s with
  | zero => rfl
  | succ n ih =>
    rw [steps]
    refine (run_succ Sys2Proof.core n s).trans ?_
    cases h : step s with
    | next y =>
      have h' : Sys2Proof.core.step s = .next y := h
      rw [h']
      exact ih y
    | fault r =>
      have h' : Sys2Proof.core.step s = .fault r := h
      rw [h']
      rfl
    | refused r =>
      have h' : Sys2Proof.core.step s = .refused r := h
      rw [h']
      rfl

/-- With a tick at the head of the schedule, the clock ticks. -/
theorem step_tick {s : State} {rest : List Input} (h : s.inbox = .tick :: rest) : step s = tick { s with inbox := rest } := by
  simp [step, moveNext, h, takeInput]

/-- With a single-word write at the head of the schedule, the HOST makes its next write. -/
theorem step_write {s : State} {rest : List Input} (h : s.inbox = .write :: rest) :
    step s = drainWrite { s with inbox := rest } := by
  simp [step, moveNext, h, takeInput]

/-- With an outside write at the head of the schedule, a latch is written at the pins the block does not drive. -/
theorem step_pins {s : State} {rest : List Input} {port : PortId} {v : Word} (h : s.inbox = .pins port v :: rest) :
    step s = .next (othersWrite port v { s with inbox := rest }) := by
  simp [step, moveNext, h, takeInput]

/-- With a begun operation at the head of the schedule and no write pending, the HOST begins it. -/
theorem step_split {s : State} {rest : List Input} {f : OpForm} (h : s.inbox = .split f :: rest) (hp : s.pendingWrites = []) :
    step s = issueSplit f { s with inbox := rest } := by
  simp [step, moveNext, h, takeInput, hp]

/-- A HOST operation waits for the pending writes of the one before it. -/
theorem step_busy {s : State} {rest : List Input} {f : OpForm} (h : s.inbox = .op f :: rest ∨ s.inbox = .split f :: rest)
    (hp : s.pendingWrites ≠ []) : step s = drainWrite s := by
  rcases h with h | h <;> simp [step, moveNext, h, takeInput, hp]

/-- With nothing scheduled the HOST first finishes its writes. -/
theorem step_empty_pending {s : State} (h : s.inbox = []) (hp : s.pendingWrites ≠ []) : step s = drainWrite s := by
  simp [step, moveNext, h, hp]

/-- A word the decoder reads under MARK is ZERO or MARK (`30_encoding.md` R103). -/
theorem decodeWord_ok {mark w : Word} {i : Instr} (h : decodeWord mark w = .ok i) :
    (w = 0 ∧ i = .t1) ∨ (w = mark ∧ i = .t0 w) := by
  unfold decodeWord at h
  split_ifs at h with h1 h2
  · exact .inl ⟨h1, by cases h; rfl⟩
  · exact .inr ⟨h2, by cases h; rfl⟩

/-- Everything SEQ.EARLY can answer with: the fetched word executed and POS advanced, or a malformed word taken. -/
theorem seqEarly_next {s t : State} (h : execSeqEarly s = .next t) :
    ∃ w, memRead s s.pos.toNat = some w ∧
      (((w = 0 ∨ w = s.mark) ∧ t = advancePos (portWrite (earlyPayload w) s)) ∨
        (w ≠ 0 ∧ w ≠ s.mark ∧ t = takeFault (.malformedFetch s.pos.toNat w) s)) := by
  unfold execSeqEarly at h
  split_ifs at h with ht
  cases hr : memRead s s.pos.toNat with
  | none => simp [hr] at h
  | some w =>
    refine ⟨w, rfl, ?_⟩
    rw [hr] at h
    have ht' : earlyTurn s = true := by simpa using ht
    simp only [decode, decodeWord] at h
    by_cases h0 : w = zeroWord
    · rw [if_pos h0] at h
      simp only [execT1, if_pos ht', andThen_next] at h
      refine .inl ⟨.inl h0, ?_⟩
      cases h
      rw [h0]
      rfl
    · rw [if_neg h0] at h
      by_cases hm : w = s.mark
      · rw [if_pos hm] at h
        have hc : ¬(w = zeroWord ∨ w ≠ s.mark) := by rintro (a | a) <;> [exact h0 a; exact a hm]
        simp only [execT0, if_neg ht, if_neg hc, andThen_next] at h
        cases h
        exact .inl ⟨.inr hm, rfl⟩
      · rw [if_neg hm] at h
        cases h
        exact .inr ⟨h0, hm, rfl⟩

end Sys2Proof.Machine
end

