-- ==== Sys2Proof/Tests/Slice0.lean ====
section
/-! SUPPORT. The model's own tests. Every expected value comes from the spec's vectors (`95_test_vectors.md`) or from its encodings
(`30_encoding.md`). A `witness_` theorem shows a state and operands that meet all hypotheses of the statement it names. -/

namespace Sys2Proof.Tests

open Sys2Proof Sys2Proof.Machine

/-! ### Helpers -/

/-- A field of the next state, where there is one. -/
def onNext {α : Type} (r : Answer) (f : State → α) : Option α :=
  match r with
  | .next s => some (f s)
  | _ => none

/-- The refusal, where there is one. -/
def refusal (r : Answer) : Option Refusal :=
  match r with
  | .refused e => some e
  | _ => none

/-- One LED on port 0, pin 0, running, `c` ticks into a bit period, with the buffer's bytes `m` (program P1 after operation 1, for
`c = 0` and an empty `m`). -/
def demo (c : Nat) (m : Memory) : State :=
  { State.reset with
    state := .running, ledCount := 1, pinMask := 0x0001, setW := 0x00000001, clrW := 0x00010000, mark := 0x0001,
    fbLen := 24, en := true, armE := true, armL := true, cntC := c, cntE := (c + 62) % 90, cntL := (c + 32) % 90,
    fb := some m }

/-- The same, stopped. -/
def stopped : State := { demo 0 [] with state := .stopped, en := false, armE := false, armL := false }

/-- Halted by INIT 0 (program P6 after operation 1). -/
def halted : State := { State.reset with state := .halted, fault := 1, raised := some (.invalidGeometry 0) }

/-- Reset, with the allocator about to say yes. -/
def fresh : State := { State.reset with allocAnswers := [true] }

/-- A buffer whose word 0 is MARK. -/
def markFirst : Memory := [(0, 0x01)]

/-- A buffer whose word 0 is 0x0003, malformed under MARK = 0x0001 (V4, third row). -/
def badFirst : Memory := [(0, 0x03)]

/-- The words of the buffer. -/
def buffer (s : State) : List (Option Word) := (List.range s.fbLen.toNat).map (memRead s)

/-! ### WellFormed refuses what the formats cannot carry -/

theorem test_marker_zero_refused : Instr.wellFormed 16 (.t0 0x0000) = false := by decide
theorem test_marker_too_wide_refused : Instr.wellFormed 8 (.t0 0x0100) = false := by decide
theorem test_fbwr_word_too_wide_refused : Instr.wellFormed 8 (.fbwr 0 0x0100) = false := by decide
theorem test_fitting_marker_accepted : Instr.wellFormed 8 (.t0 0x0080) = true := by decide

/-! ### Decoding, from the encodings of R91, R92, R96, R97 -/

theorem test_decode_t1 : decode 0x0001 (.tw 0b0000000000000000) = .ok .t1 := by rfl
theorem test_decode_t0 : decode 0x0028 (.tw 0b0000000000101000) = .ok (.t0 0x0028) := by rfl
theorem test_decode_sym : decode 0x0001 (.sym 0b00001100) = .ok (.sym 0b1100) := by rfl
theorem test_decode_init : decode 0 (.op { op := 0b0001, ledCount := 0x00000002, port := 7, pinMask := 0x0028 })
    = .ok (.init 2 7 0x0028) := by rfl
theorem test_decode_stop : decode 0 (.op { op := 0b0010 }) = .ok .stop := by rfl
theorem test_decode_start : decode 0 (.op { op := 0b0011 }) = .ok .start := by rfl
theorem test_decode_enc8 : decode 0 (.op { op := 0b0100, v := 0x8F }) = .ok (.enc8 0x8F) := by rfl
theorem test_decode_encrgb : decode 0 (.op { op := 0b0101, i := 0x0001, r := 0xFF, g := 0x10, b := 0x2F })
    = .ok (.encrgb 1 0xFF 0x10 0x2F) := by rfl
theorem test_decode_fbwr : decode 0 (.op { op := 0b0110, i := 0x008F, w := 0x0001 }) = .ok (.fbwr 143 0x0001) := by rfl
theorem test_decode_fbrd : decode 0 (.op { op := 0b0111, i := 0x0004 }) = .ok (.fbrd 4) := by rfl
theorem test_decode_set : decode 0 (.evt 0b00) = .ok .seqSet := by rfl
theorem test_decode_early : decode 0 (.evt 0b01) = .ok .seqEarly := by rfl
theorem test_decode_late : decode 0 (.evt 0b10) = .ok .seqLate := by rfl

theorem test_decode_malformed : decode 0x0001 (.tw 0x0003) = .error (.malformedWord 0x0003) := by rfl
theorem test_decode_reserved : decode 0 (.op { op := 0x8 }) = .error (.reservedSelector 0x8) ∧
    decode 0 (.op { op := 0x0 }) = .error (.reservedSelector 0x0) ∧
    decode 0 (.evt 3) = .error .reservedSource ∧ decode 0 (.sym 0x10) = .error (.notASymbol 0x10) := by
  exact ⟨rfl, rfl, rfl, rfl⟩

/-- The numbers of `opcode_table.json` (log entry 16). -/
theorem test_table_words :
    decodeTableWord 16 0x0000 = some .t1 ∧ decodeTableWord 16 0x0028 = some (.t0 0x0028) ∧
    decodeTableWord 8 0x0C = some (.sym 0xC) ∧ decodeTableWord 8 0x1 = some (.init 0 0 0) ∧
    decodeTableWord 8 0x2 = some .stop ∧ decodeTableWord 8 0x3 = some .start ∧ decodeTableWord 8 0x4 = some (.enc8 0) ∧
    decodeTableWord 8 0x5 = some (.encrgb 0 0 0 0) ∧ decodeTableWord 8 0x6 = some (.fbwr 0 0) ∧
    decodeTableWord 8 0x7 = some (.fbrd 0) ∧ decodeTableWord 2 0 = some .seqSet ∧ decodeTableWord 2 1 = some .seqEarly ∧
    decodeTableWord 2 2 = some .seqLate ∧ decodeTableWord 8 0x10 = none ∧ decodeTableWord 4 0x8 = none ∧
    decodeTableWord 2 3 = none := by decide

/-- From reset, the step runs what `withFetchWord` places: an event, a timing word, a symbol, an operation. -/
theorem test_withFetchWord :
    onNext (step (State.reset.withFetchWord 8 0)) (·.portTrace) = some [0x00000001] ∧
    onNext (step (State.reset.withFetchWord 2 1)) (·.portTrace) = some [0x00000000] ∧
    onNext (step (State.reset.withFetchWord 2 2)) (·.portTrace) = some [0x00010000] ∧
    onNext (step (State.reset.withFetchWord 16 0x0028)) (·.portTrace) = some [0x00280000] ∧
    onNext (step (State.reset.withFetchWord 8 0x0F)) (·.result) = some (.words [1, 1, 1, 1, 0, 0, 0, 0]) ∧
    refusal (step (State.reset.withFetchWord 8 0x2)) = some .stopNotAdmitted := by decide

/-- Event id 3 and a byte that is no symbol change nothing; a reserved selector is issued and refused (log entry 16). -/
theorem test_withFetchWord_nothing :
    State.reset.withFetchWord 2 3 = State.reset ∧ State.reset.withFetchWord 8 0x10 = State.reset ∧
    State.reset.withFetchWord 8 0xFF = State.reset ∧
    refusal (step (State.reset.withFetchWord 4 0x8)) = some (.undecodable (.reservedSelector 0x8)) := ⟨rfl, rfl, rfl, rfl⟩

/-! ### One instruction at a time -/

/-- V1, rows 0x80, 0x0F. -/
theorem test_enc8_0x80 : onNext (exec (.enc8 0x80) (demo 0 [])) (·.result) = some (.words [1, 1, 1, 1, 0, 1, 1, 1]) := by decide
theorem test_enc8_0x0F : onNext (exec (.enc8 0x0F) (demo 0 [])) (·.result) = some (.words [1, 1, 1, 1, 1, 1, 1, 1]) := by decide

/-- V1, row 0x7F: symbol 0x07. -/
theorem test_sym_7 : onNext (exec (.sym 0x7) (demo 0 [])) (·.result) = some (.words [1, 1, 1, 1, 1, 0, 0, 0]) := by decide

/-- S1: 0x80 decodes to 0x08, 0xFF to 0x0F. -/
theorem test_dec8 : dec8 1 (channelWords 1 0x80) = 0x08 ∧ dec8 1 (channelWords 1 0xFF) = 0x0F := by decide

/-- V2, first row: green lands first, then red, then blue. -/
theorem test_encrgb_order : onNext (exec (.encrgb 0 0x12 0x80 0xFF) (demo 0 [])) buffer =
    some ([1, 1, 1, 1, 0, 1, 1, 1, 1, 1, 1, 1, 1, 1, 1, 0, 1, 1, 1, 1, 0, 0, 0, 0].map some) := by decide

/-- V2, last row: LED 1 of one. -/
theorem test_encrgb_no_such_led : onNext (exec (.encrgb 1 0 0 0) (demo 0 [])) (fun s => (s.fault, s.raised, s.fb)) =
    some (3, some (.fbIndexOutOfRange 24), some []) := by decide

/-- S2, with FBLEN = 24: index 23 succeeds, index 24 faults; V7: the index is tested before the word. -/
theorem test_fbwr_last : onNext (exec (.fbwr 23 0x0001) (demo 0 [])) (fun s => (s.fault, memRead s 23, s.fb)) =
    some (0, some 0x0001, some [(46, 0x01)]) := by decide
theorem test_fbwr_breaches :
    onNext (exec (.fbwr 24 7) (demo 0 [])) (fun s => (s.fault, s.state)) = some (3, .running) ∧
    onNext (exec (.fbwr 0 7) (demo 0 [])) (fun s => (s.fault, s.state)) = some (4, .running) ∧
    onNext (exec (.fbwr 0 7) { demo 0 [] with fault := 3 }) (fun s => (s.fault, s.state)) = some (3, .running) := by decide

/-- V11: FBRD 0 is MARK here, FBRD 24 raises FbIndexOutOfRange. -/
theorem test_fbrd : onNext (exec (.fbrd 0) (demo 0 markFirst)) (·.result) = some (.word 0x0001) := by decide
theorem test_fbrd_out_of_range : onNext (exec (.fbrd 24) (demo 0 [])) (fun s => (s.fault, s.raised)) =
    some (3, some (.fbIndexOutOfRange 24)) := by decide

/-- V3 and V7: INIT 2730 with mask 0x0028; the table's other masks give their words. -/
theorem test_init_configures : onNext (exec (.init 2730 5 0x0028) fresh)
    (fun s => (s.state, s.fbLen, s.setW, s.clrW, s.mark)) = some (.running, 65520, 0x00000028, 0x00280000, 0x0028) := by decide
theorem test_init_fails :
    onNext (exec (.init (-1) 0 0x0001) fresh) (fun s => (s.state, s.fault)) = some (.halted, 1) ∧
    onNext (exec (.init 2731 0 0x0001) fresh) (fun s => (s.state, s.fault)) = some (.halted, 2) ∧
    refusal (exec (.init 0 0 0x0000) fresh) = some .badPinMask := by decide

/-- V7: STOP in RUNNING and elsewhere. -/
theorem test_stop : onNext (exec .stop (demo 40 [])) (fun s => (s.state, s.en, s.cntC, s.fault)) =
    some (.stopped, false, 40, 0) := by decide
theorem test_stop_refused : refusal (exec .stop stopped) = some .stopNotAdmitted := by decide

/-- P1 after 1, V6 at t = 0: the start sequence's counters. -/
theorem test_start : onNext (exec .start { stopped with pos := 6, cntC := 40 })
    (fun s => (s.state, s.pos, s.cntC, s.cntE, s.cntL)) = some (.running, 0, 0, 62, 32) := by decide
theorem test_start_refused : refusal (exec .start (demo 0 [])) = some .startNotAdmitted := by decide

/-- V4, with an unmasked pin high before; V5: POS 23 of 24 wraps. -/
theorem test_set : onNext (exec .seqSet { demo 0 [] with out := [(0, 0x4000)] }) (latch · 0) = some 0x4001 := by decide
theorem test_t1 : onNext (exec .t1 { demo 28 [] with out := [(0, 0x4001)] }) (latch · 0) = some 0x4001 := by decide
theorem test_t0 : onNext (exec (.t0 1) { demo 28 [] with out := [(0, 0x4001)] }) (latch · 0) = some 0x4000 := by decide
theorem test_early_mark : onNext (exec .seqEarly { demo 28 markFirst with out := [(0, 0x4001)] })
    (fun s => (latch s 0, s.pos, s.portTrace)) = some (0x4000, 1, [0x00010000]) ∧
    onNext (exec .seqEarly { demo 28 [] with pos := 23 }) (·.pos) = some 0 := by decide
theorem test_early_malformed : onNext (exec .seqEarly { demo 28 badFirst with out := [(0, 0x0001)] })
    (fun s => (latch s 0, s.pos, s.state, s.fault, s.en)) = some (0x0001, 0, .halted, 4, false) := by decide
theorem test_late : onNext (exec .seqLate { demo 58 [] with out := [(0, 0x4001)] }) (latch · 0) = some 0x4000 := by decide
theorem test_late_out_of_turn : refusal (exec .seqLate (demo 57 [])) = some .eventNotEnabled := by decide

/-- V6: from t = 57 and from t = 89, one tick. -/
theorem test_tick_57 : onNext (step (demo 57 [])) (fun s => (s.cntC, s.cntE, s.cntL, s.portTrace)) = some (58, 30, 0, []) := by
  decide
theorem test_tick_89 : onNext (step (demo 89 [])) (fun s => (s.cntC, s.cntE, s.cntL)) = some (0, 62, 32) := by decide

/-- R21: the encoding of STATE. -/
theorem test_state_codes : Lifecycle.uninit.code = 0 ∧ Lifecycle.running.code = 1 ∧ Lifecycle.stopped.code = 2 ∧
    Lifecycle.halted.code = 3 := by decide

/-- A split ENCRGB leaves 24 writes; the first makes word 0. -/
theorem test_split : onNext (step { demo 0 [] with inbox := [.split { op := 5 }] }) (fun s => (s.pendingWrites.length, s.fb)) =
    some (24, some []) := by decide
theorem test_write : onNext (step { demo 0 [] with pendingWrites := [(0, 1), (1, 1)] })
    (fun s => (s.pendingWrites, s.fb)) = some ([(1, 1)], some markFirst) := by decide

/-- P3: an outside write sets pin 14 of the port but not the masked pin 0 of the running block. -/
theorem test_pins : onNext (step { demo 0 [] with inbox := [.pins 0 0x4001] }) (latch · 0) = some 0x4000 := by decide

/-- R256: after STOP the level of the masked pin is software's to arrange. -/
theorem test_pins_stopped : onNext (step { stopped with inbox := [.pins 0 0x0001] }) (latch · 0) = some 0x0001 := by decide

/-- V10: j = 0, hues 42 and 126; S4: Wheel(170), Wheel(254). -/
theorem test_wheel : wheel 42 = ⟨129, 126, 0⟩ ∧ wheel 126 = ⟨0, 132, 123⟩ ∧ wheel 170 = ⟨0, 0, 255⟩ ∧ wheel 254 = ⟨252, 0, 3⟩ := by
  decide

/-- P2: the operations of the Test pattern; S3: Calm's phase. -/
theorem test_generators : testPattern 6 = [.encrgb 0 0 0 0, .encrgb 1 255 0 0, .encrgb 2 0 255 0, .encrgb 3 0 0 255,
    .encrgb 4 255 255 255, .encrgb 5 255 255 255] ∧ calmNext 6 5 = 0 ∧
    (calmTick 6 1)[3]? = some (.encrgb 3 0 129 126) := by decide

/-! ### Canonical form -/

theorem test_reset_canonical : sparseWf State.reset.out = true ∧ State.reset.fb = none ∧ Memory.wf [] = true := by decide
theorem test_write_zero_removes : (Memory.writeWord 2 [(0, 0x01)] 0 0x0000) = [] := by decide
theorem test_word_byte_order : Memory.writeWord 2 [] 1 0x0201 = [(2, 0x01), (3, 0x02)] := by decide

/-! ### Witnesses: concrete states and operands that meet a statement's hypotheses -/

/-- A buffer of 24 canonical words is good for `demo`. -/
theorem goodBuffer_empty (c : Nat) : GoodBuffer (demo c []) [] where
  wf := rfl
  canonical _ _ := .inl (readWord_nil _ _)
  slack _ _ := rfl

theorem demo_stride (c : Nat) (m : Memory) : wordStride (demo c m).cfg = 2 := by simp [wordStride, demo, State.reset, Config.default]

theorem goodBuffer_markFirst (c : Nat) : GoodBuffer (demo c markFirst) markFirst where
  wf := rfl
  canonical i hi := by
    rcases Nat.eq_zero_or_pos i with h | h
    · subst h
      rw [demo_stride]
      right
      show Memory.readWord 2 markFirst 0 = 1
      decide
    · left
      rw [demo_stride]
      have h1 : ¬(0 : Nat) = i * 2 + 1 := by omega
      have h2 : ¬(0 : Nat) = i * 2 := by omega
      show (if (2 : Nat) = 1 then (sparseGet markFirst (i * 2)).setWidth 16
        else sparseGet markFirst (i * 2 + 1) ++ sparseGet markFirst (i * 2)) = zeroWord
      simp only [markFirst, sparseGet, if_neg h1, if_neg h2]
      rfl
  slack a ha := by
    have h : ¬(0 : Nat) = a := by
      have : wordAddress 2 24 ≤ a := by rw [demo_stride] at ha; exact ha
      unfold wordAddress at this
      omega
    show sparseGet markFirst a = 0
    simp only [markFirst, sparseGet, if_neg h]

/-- `demo` meets the invariant at every phase, with a good buffer. -/
theorem demo_configured (c : Nat) (m : Memory) (hc : c < 90) (g : GoodBuffer (demo c m) m) : Configured (demo c m) where
  cfgWf := by rfl
  maskNonzero := by show (1 : Word) ≠ 0; decide
  maskFits := by show (1 : Nat) < 2 ^ 16; decide
  setW := by show (0x00000001 : PortWord) = 0#16 ++ 0x0001#16; decide
  clrW := by show (0x00010000 : PortWord) = 0x0001#16 ++ 0#16; decide
  mark := by rfl
  ledCountPos := by show 0 < 1; decide
  fbLen := by rfl
  capacity := by show 24 + 0 ≤ 65535; decide
  pos := by show 0 < 24; decide
  buffer := ⟨m, rfl, g⟩
  cntC := hc
  cntE := by rfl
  cntL := by rfl

theorem demo_inv (c : Nat) (m : Memory) (hc : c < 90) (g : GoodBuffer (demo c m) m) : Inv (demo c m) where
  latches := rfl
  memory m' h := by cases h; exact g.wf
  faultCode := by show 0 ≤ 4; decide
  enables := ⟨rfl, rfl, rfl⟩
  halted h := by cases h
  uninit h := by cases h
  configured _ := demo_configured c m hc g
  pendingGood p h := by cases h
  pendingConfigured h := absurd rfl h

theorem stopped_inv : Inv stopped where
  latches := rfl
  memory m' h := by cases h; rfl
  faultCode := by show 0 ≤ 4; decide
  enables := ⟨rfl, rfl, rfl⟩
  halted h := by cases h
  uninit h := by cases h
  configured _ :=
    have h := demo_configured 0 [] (by decide) (goodBuffer_empty 0)
    ⟨h.cfgWf, h.maskNonzero, h.maskFits, h.setW, h.clrW, h.mark, h.ledCountPos, h.fbLen, h.capacity, h.pos,
      ⟨[], rfl, rfl, fun _ _ => .inl (readWord_nil _ _), fun _ _ => rfl⟩, h.cntC, h.cntE, h.cntL⟩
  pendingGood p h := by cases h
  pendingConfigured h := absurd rfl h

theorem halted_inv : Inv halted where
  latches := rfl
  memory m' h := by cases h
  faultCode := by show 1 ≤ 4; decide
  enables := ⟨rfl, rfl, rfl⟩
  halted _ := by show (1 : BitVec 3) ≠ 0; decide
  uninit h := by cases h
  configured h := by cases h
  pendingGood p h := by cases h
  pendingConfigured h := absurd rfl h

/-- A running block with an ENCRGB in progress: the write of word 23 is left. -/
def writing : State := { demo 5 [] with pendingWrites := [(23, 0x0001)] }

theorem writing_inv : Inv writing :=
  have h := demo_inv 5 [] (by decide) (goodBuffer_empty 5)
  ⟨h.latches, h.memory, h.faultCode, h.enables, h.halted, h.uninit,
    fun hc => have c := h.configured hc
      ⟨c.cfgWf, c.maskNonzero, c.maskFits, c.setW, c.clrW, c.mark, c.ledCountPos, c.fbLen, c.capacity, c.pos,
        ⟨[], rfl, rfl, fun _ _ => .inl (readWord_nil _ _), fun _ _ => rfl⟩, c.cntC, c.cntE, c.cntL⟩,
    fun p hp => by
      have e : p = (23, 0x0001) := by simpa [writing] using hp
      subst e
      exact ⟨by show 23 < 24; decide, .inr rfl⟩,
    fun _ => rfl⟩

/-- Taking an input leaves the invariant: the schedule is no part of it. -/
theorem inv_inbox {s : State} (h : Inv s) (x : List Input) : Inv { s with inbox := x } :=
  ⟨h.latches, h.memory, h.faultCode, h.enables, h.halted, h.uninit,
    fun hc => have c := h.configured hc
      ⟨c.cfgWf, c.maskNonzero, c.maskFits, c.setW, c.clrW, c.mark, c.ledCountPos, c.fbLen, c.capacity, c.pos,
        c.buffer.elim fun m g => ⟨m, g.1, g.2.wf, g.2.canonical, g.2.slack⟩, c.cntC, c.cntE, c.cntL⟩,
    h.pendingGood, h.pendingConfigured⟩

theorem running0 : Inv (demo 0 []) := demo_inv 0 [] (by decide) (goodBuffer_empty 0)
theorem running0mark : Inv (demo 0 markFirst) := demo_inv 0 markFirst (by decide) (goodBuffer_markFirst 0)
theorem running28 : Inv (demo 28 []) := demo_inv 28 [] (by decide) (goodBuffer_empty 28)

/-- Stopped, under ALLOW_REINIT, with the allocator about to say yes. -/
def reinit : State := { stopped with cfg := { Config.default with allowReinit := true }, allocAnswers := [true] }

theorem witness_DecodeOfEncodeIsIdentity :
    Instr.wellFormed 16 (.t0 0xFFFF) = true ∧ (∀ m, Instr.t0 0xFFFF = .t0 m → m = 0xFFFF) ∧
    Instr.wellFormed 16 (.fbwr 0xFFFF 0xFFFF) = true := ⟨rfl, fun _ h => by cases h; rfl, rfl⟩
theorem witness_ReservedEncodingsAreRejected :
    ((3 : Word) ≠ 0 ∧ (3 : Word) ≠ 1) ∧ (8 ≤ (8 : BitVec 4).toNat) ∧ ((0 : BitVec 4).toNat = 0) ∧ 16 ≤ (16 : Byte).toNat ∧
    { demo 0 [] with inbox := [.op { op := 8 }] }.inbox = .op { op := 8 } :: [] ∧
    { demo 0 [] with inbox := [.split { op := 0 }] }.inbox = .split { op := 0 } :: [] ∧ (demo 0 []).pendingWrites = [] := by
  refine ⟨by decide, by decide, by decide, by decide, rfl, rfl, rfl⟩
theorem witness_QuantiseTakesUpperNibble : 3 < 4 := by decide
theorem witness_SymbolIsNibbleZeroExtended : 4 ≤ 7 := by decide
theorem witness_SymbolWordsMostSignificantFirst : 7 < 8 := by decide
theorem witness_Dec8InvertsEnc8 : (1 : Word) ≠ 0 ∧ ([1, 1, 1, 1, 0, 1, 1, 1] : List Word).length = 8 ∧
    ∀ w ∈ ([1, 1, 1, 1, 0, 1, 1, 1] : List Word), w = 0 ∨ w = 1 := by simp
theorem witness_EncoderFactorsThroughNibble : (1 : Word) ≠ 0 ∧ blockWords 1 0x1F 0 0 = blockWords 1 0x10 0 0 := by decide
theorem witness_WordIndexHasInverse : 2 < 3 ∧ 7 < 8 ∧ wordIndex 5 2 0 = 143 := by decide
theorem witness_Enc8AnswersWords :
    (demo 0 []).state = .running ∧ stopped.state = .stopped ∧ State.reset.state = .uninit ∧ halted.state = .halted :=
  ⟨rfl, rfl, rfl, rfl⟩
theorem witness_SymAnswersWordsOfSymbol :
    (demo 0 []).state = .running ∧ stopped.state = .stopped ∧ State.reset.state = .uninit ∧ halted.state = .halted :=
  ⟨rfl, rfl, rfl, rfl⟩
theorem witness_EncrgbWritesBlock :
    (demo 0 []).state = .running ∧ (demo 0 []).cfg.wf = true ∧ (demo 0 []).fb = some [] ∧
    (0 : BitVec 16).toNat < (demo 0 []).ledCount.toNat ∧ (demo 0 []).fbLen.toNat = (demo 0 []).ledCount.toNat * 24 ∧
    (demo 0 []).mark.toNat < 2 ^ (demo 0 []).cfg.wordBits := by decide
theorem witness_SplitEncrgbEqualsWhole :
    { demo 0 [] with inbox := .split { op := 5 } :: (List.replicate 24 Input.write ++ []) }.pendingWrites = [] := rfl
theorem witness_WordWriteThenRead : Config.default.wf = true ∧ (0xFFFF : Word).toNat < 2 ^ Config.default.wordBits ∧
    Config.wf { Config.default with wordBits := 8 } = true ∧ (0xFF : Word).toNat < 2 ^ 8 := by decide
theorem witness_FbwrWritesWord :
    (demo 0 []).state = .running ∧ (demo 0 []).cfg.wf = true ∧ (demo 0 []).fb = some [] ∧
    (23 : BitVec 16).toNat < (demo 0 []).fbLen.toNat ∧ (1 : Word) = (demo 0 []).mark ∧
    (1 : Word).toNat < 2 ^ (demo 0 []).cfg.wordBits := by decide
theorem witness_FbwrBreachesRaise :
    (demo 0 []).state = .running ∧ (demo 0 []).fbLen.toNat ≤ (24 : BitVec 16).toNat ∧
    (23 : BitVec 16).toNat < (demo 0 []).fbLen.toNat ∧ (3 : Word) ≠ 0 ∧ (3 : Word) ≠ (demo 0 []).mark ∧
    State.reset.state = .uninit := by decide
theorem witness_FbrdReadsWord :
    (demo 0 []).state = .running ∧ (demo 0 []).fb = some [] ∧ (23 : BitVec 16).toNat < (demo 0 []).fbLen.toNat ∧
    (demo 0 []).fbLen.toNat ≤ (24 : BitVec 16).toNat ∧ halted.state = .halted := by decide
theorem witness_EncrgbOutOfRangeRaises :
    stopped.state = .stopped ∧ stopped.ledCount.toNat ≤ (1 : BitVec 16).toNat ∧ State.reset.state = .uninit := by decide
theorem witness_PortWriteActsPerPin : 15 < 16 ∧ 1 ≠ (demo 0 []).portSel := by decide
theorem witness_SeqSetRaisesMaskedPins :
    (demo 0 []).state = .running ∧ (demo 0 []).en = true ∧ (demo 0 []).cntC = 0 ∧
    (demo 0 []).setW = 0#16 ++ (demo 0 []).pinMask := by decide
theorem witness_SeqLateLowersMaskedPins :
    (demo 58 []).state = .running ∧ (demo 58 []).en = true ∧ (demo 58 []).armL = true ∧ (demo 58 []).cntL = 0 ∧
    (demo 58 []).clrW = (demo 58 []).pinMask ++ 0#16 := by decide
theorem witness_T1ChangesNoPin :
    (demo 28 []).state = .running ∧ (demo 28 []).en = true ∧ (demo 28 []).armE = true ∧ (demo 28 []).cntE = 0 := by decide
theorem witness_T0LowersMaskedPins :
    (demo 28 []).state = .running ∧ (demo 28 []).en = true ∧ (demo 28 []).armE = true ∧ (demo 28 []).cntE = 0 ∧
    (demo 28 []).mark = (demo 28 []).pinMask ∧ (demo 28 []).mark ≠ 0 ∧ (3 : Word) ≠ (demo 28 []).mark := by decide
theorem witness_SeqEarlyPlaysWord :
    (demo 28 markFirst).state = .running ∧ (demo 28 markFirst).en = true ∧ (demo 28 markFirst).armE = true ∧
    (demo 28 markFirst).cntE = 0 ∧ (demo 28 markFirst).fb = some markFirst ∧
    (demo 28 markFirst).pos.toNat < (demo 28 markFirst).fbLen.toNat ∧
    Memory.readWord (wordStride (demo 28 markFirst).cfg) markFirst 0 = (demo 28 markFirst).mark := by decide
theorem witness_SeqEarlyMalformedHalts :
    (demo 28 badFirst).state = .running ∧ (demo 28 badFirst).en = true ∧ (demo 28 badFirst).armE = true ∧
    (demo 28 badFirst).cntE = 0 ∧ (demo 28 badFirst).fb = some badFirst ∧
    (demo 28 badFirst).pos.toNat < (demo 28 badFirst).fbLen.toNat ∧
    Memory.readWord (wordStride (demo 28 badFirst).cfg) badFirst 0 = 3 ∧ (3 : Word) ≠ (demo 28 badFirst).mark := by decide
theorem witness_EventsOutOfTurnAreRefused :
    (demo 1 []).cntC ≠ 0 ∧ (demo 27 []).cntE ≠ 0 ∧ (demo 59 []).cntL ≠ 0 ∧ stopped.state ≠ .running := by decide
theorem witness_OnlyThreeInstructionsWritePos :
    onNext (exec .seqSet (demo 0 [])) (·.pos) = some 0 ∧ (∀ n port mask, Instr.seqSet ≠ .init n port mask) ∧
    Instr.seqSet ≠ .start ∧ Instr.seqSet ≠ .seqEarly :=
  ⟨rfl, nofun, by decide, by decide⟩
theorem witness_HostOperationsLeavePins : decode (demo 0 []).mark (.op { op := 4, v := 0x80 }) = .ok (.enc8 0x80) ∧
    onNext (exec (.enc8 0x80) (demo 0 [])) (·.out) = some [] := ⟨rfl, rfl⟩
theorem witness_UnmaskedPinsNeverChange : Inv (demo 0 []) ∧ onNext (tick (demo 0 [])) (latch · 0) = some 1 ∧
    (demo 0 []).pinMask.getLsbD 1 = false ∧ 1 ≠ (demo 0 []).portSel := ⟨running0, rfl, rfl, by decide⟩
theorem witness_MaskedPinsMoveTogether : Inv (demo 0 []) ∧ (demo 0 []).state = .running ∧ MaskedUniform (demo 0 []) ∧
    onNext (step (demo 0 [])) (·.state) = some .running ∧ onNext (exec .seqSet (demo 0 [])) (·.state) = some .running :=
  ⟨running0, rfl, .inr rfl, rfl, rfl⟩
theorem witness_CountersFollowTicks : Inv stopped ∧ stopped.state = .stopped := ⟨stopped_inv, rfl⟩

/-- The pulse's boundaries: n = 28, 29 under MARK, n = 58, 59 under ZERO, n = 90. -/
theorem witness_BitPeriodShapesPulse :
    (Inv (demo 0 markFirst) ∧ (demo 0 markFirst).state = .running ∧ (demo 0 markFirst).cntC = 0 ∧
      (demo 0 markFirst).fb = some markFirst ∧
      1 = markFirst.readWord (wordStride (demo 0 markFirst).cfg) (demo 0 markFirst).pos.toNat ∧ 0 < 28 ∧
      29 ≤ (demo 0 markFirst).cfg.p) ∧
    (Inv (demo 0 []) ∧ (demo 0 []).state = .running ∧ (demo 0 []).cntC = 0 ∧ (demo 0 []).fb = some [] ∧
      0 = Memory.readWord (wordStride (demo 0 []).cfg) [] (demo 0 []).pos.toNat ∧ 0 < 58 ∧ 59 ≤ (demo 0 []).cfg.p ∧
      90 ≤ (demo 0 []).cfg.p) :=
  ⟨⟨running0mark, rfl, rfl, rfl, by decide, by decide, by decide⟩,
    running0, rfl, rfl, rfl, by decide, by decide, by decide, by decide⟩
theorem witness_BitPeriodMakesThreePortWrites : Inv (demo 0 markFirst) ∧ (demo 0 markFirst).state = .running ∧
    (demo 0 markFirst).cntC = 0 ∧ (demo 0 markFirst).fb = some markFirst ∧
    1 = markFirst.readWord (wordStride (demo 0 markFirst).cfg) (demo 0 markFirst).pos.toNat :=
  ⟨running0mark, rfl, rfl, rfl, by decide⟩
theorem witness_PosCountsBitPeriods : Inv stopped ∧ stopped.state = .stopped := ⟨stopped_inv, rfl⟩
theorem witness_InitBringsUpBlock :
    (fresh.cfg.wf = true ∧ fresh.state = .uninit ∧ (1 : Word) ≠ 0 ∧ (1 : Word).toNat < 2 ^ fresh.cfg.wordBits ∧
      0 < (2730 : BitVec 32).toInt ∧ (2730 : BitVec 32).toNat * 24 + fresh.cfg.slackWords ≤ fresh.cfg.fbCapacity ∧
      allocAnswer ((2730 : BitVec 32).toNat * 24 + fresh.cfg.slackWords) fresh = true) ∧
    (reinit.state = .stopped ∧ reinit.cfg.allowReinit = true ∧ reinit.cfg.wf = true ∧
      allocAnswer ((1 : BitVec 32).toNat * 24 + reinit.cfg.slackWords) reinit = true) := by decide
theorem witness_InitFatalErrorsHalt :
    fresh.cfg.wf = true ∧ fresh.state = .uninit ∧ (0x8000 : Word) ≠ 0 ∧ (0x8000 : Word).toNat < 2 ^ fresh.cfg.wordBits ∧
    (0 : BitVec 32).toInt ≤ 0 ∧ (-1 : BitVec 32).toInt ≤ 0 ∧ 0 < (2731 : BitVec 32).toInt ∧
    fresh.cfg.fbCapacity < (2731 : BitVec 32).toNat * 24 + fresh.cfg.slackWords ∧
    allocAnswer ((6 : BitVec 32).toNat * 24 + fresh.cfg.slackWords) { fresh with allocAnswers := [false] } = false := by decide
theorem witness_InitRefusals :
    (demo 0 []).cfg.wf = true ∧ (demo 0 []).state = .running ∧ halted.state = .halted ∧
    (stopped.state = .stopped ∧ stopped.cfg.allowReinit = false) ∧ State.reset.state = .uninit ∧
    Config.wf { Config.default with wordBits := 8 } = true ∧ 2 ^ 8 ≤ (0x8000 : Word).toNat := by decide
theorem witness_StopStopsPlayback : (demo 0 []).state = .running ∧ stopped.state ≠ .running := by decide
theorem witness_StartRestartsPlayback : stopped.state = .stopped ∧ (demo 0 []).state ≠ .stopped := by decide
theorem witness_OnlyInitAndStartSetRunning : Inv stopped ∧ stopped.state ≠ .running ∧
    onNext (exec .start stopped) (·.state) = some .running ∧ Inv { stopped with inbox := [.op { op := 3 }] } ∧
    onNext (step { stopped with inbox := [.op { op := 3 }] }) (·.state) = some .running :=
  ⟨stopped_inv, by decide, rfl, inv_inbox stopped_inv _, rfl⟩
theorem witness_HaltedIsTerminal : Inv halted ∧ halted.state = .halted ∧
    decode halted.mark (.op { op := 3 }) = .ok .start ∧ onNext (step halted) (·.state) = some .halted ∧
    (∀ port v, halted.inbox.head? ≠ some (.pins port v)) := ⟨halted_inv, rfl, rfl, rfl, fun _ _ h => by cases h⟩
theorem witness_FaultIsSticky : halted.fault ≠ 0 ∧ onNext (step halted) (·.fault) = some 1 := by decide
theorem witness_ConfigurationIsConstant : (demo 0 []).state ≠ .uninit ∧ (demo 0 []).cfg.allowReinit = false ∧
    onNext (step (demo 0 [])) (·.mark) = some 1 ∧
    reinit.cfg.allowReinit = true ∧ onNext (step reinit) (·.mark) = some 1 ∧ reinit.inbox = [] ∧
    writing.pendingWrites ≠ [] ∧
    onNext (step { writing with inbox := [.op { op := 1 }] }) (·.mark) = some 1 := by decide
theorem witness_OnlyStopEndsPlayback : Inv { demo 0 [] with inbox := [.op { op := 2 }] } ∧
    onNext (step { demo 0 [] with inbox := [.op { op := 2 }] }) (·.state) = some .stopped := ⟨inv_inbox running0 _, rfl⟩
theorem witness_RunningBlockNeverStops : Inv writing ∧ writing.state = .running ∧ writing.inbox = [] :=
  ⟨writing_inv, rfl, rfl⟩
theorem witness_StepRunsDecodedInstruction :
    (decode (demo 0 []).mark (.op { op := 2 }) = .ok .stop ∧ (demo 0 []).pendingWrites = [] ∧ (demo 0 []).inbox = []) ∧
    ((demo 28 markFirst).state = .running ∧ (demo 28 markFirst).en = true ∧ (demo 28 markFirst).armE = true ∧
      (demo 28 markFirst).cntE = 0 ∧ memRead (demo 28 markFirst) 0 = some 1 ∧
      decode (demo 28 markFirst).mark (.tw 1) = .ok (.t0 1)) :=
  ⟨⟨rfl, rfl, rfl⟩, rfl, rfl, rfl, rfl, by decide, rfl⟩
theorem witness_TickRunsOneEvent : Inv (demo 0 []) ∧ (demo 0 []).cntC = 0 ∧ Inv (demo 28 []) ∧ (demo 28 []).cntE = 0 ∧
    Inv (demo 58 []) ∧ (demo 58 []).cntL = 0 ∧ Inv (demo 89 []) ∧ (demo 89 []).cntC ≠ 0 ∧ (demo 89 []).cntE ≠ 0 ∧
    (demo 89 []).cntL ≠ 0 :=
  ⟨running0, rfl, running28, rfl, demo_inv 58 [] (by decide) (goodBuffer_empty 58), rfl,
    demo_inv 89 [] (by decide) (goodBuffer_empty 89), by decide, by decide, by decide⟩
theorem witness_OutsideWritesSpareDrivenPins :
    { demo 0 [] with inbox := [.pins 0 0xFFFF] }.inbox = .pins 0 0xFFFF :: [] ∧ (demo 0 []).pinMask.getLsbD 0 = true ∧
    (demo 0 []).pinMask.getLsbD 15 = false ∧ { stopped with inbox := [.pins 0 0x0001] }.inbox = .pins 0 0x0001 :: [] ∧
    stopped.state = .stopped ∧ stopped.pinMask.getLsbD 0 = true := ⟨rfl, rfl, rfl, rfl, rfl, rfl⟩
theorem witness_StepKeepsInvariant : Inv writing ∧ onNext (step writing) (·.fb) = some (some [(46, 0x01)]) ∧
    Inv (demo 28 []) ∧ onNext (step (demo 28 [])) (·.pos) = some 1 := ⟨writing_inv, rfl, running28, rfl⟩
theorem witness_FetchIsAlwaysCanonical : Inv (demo 28 []) ∧ (demo 28 []).state = .running ∧ (demo 28 []).cntE = 0 :=
  ⟨running28, rfl, rfl⟩
theorem witness_FetchSeesLatestWrite : Inv (demo 28 []) ∧ (demo 28 []).cntE = 0 ∧ (1 : Word) = (demo 28 []).mark :=
  ⟨running28, rfl, rfl⟩
theorem witness_FreshBufferPlaysOnes : Inv (demo 0 []) ∧ (demo 0 []).state = .running ∧ (demo 0 []).cntC = 0 ∧
    (demo 0 []).fb = some [] ∧ ∀ i < (demo 0 []).fbLen.toNat, Memory.readWord (wordStride (demo 0 []).cfg) [] i = 0 :=
  ⟨running0, rfl, rfl, rfl, fun _ _ => readWord_nil _ _⟩
theorem witness_PaintingPaintsEveryLed : Inv (demo 0 []) ∧ (demo 0 []).state = .running ∧ Inv stopped ∧
    stopped.state = .stopped := ⟨running0, rfl, stopped_inv, rfl⟩
theorem witness_StepNeverFaults : Inv writing ∧ Inv (demo 28 []) ∧
    (∀ f, writing.inbox.head? ≠ some (.op f) ∧ writing.inbox.head? ≠ some (.split f)) :=
  ⟨writing_inv, running28, fun _ => ⟨nofun, nofun⟩⟩

end Sys2Proof.Tests
end

section
/-! The encoder's stages and the index of a word (`30_encoding.md` section 2): what each function answers, bit by bit or as
arithmetic, and from these rules the statements O4, O5, O6 and O9. -/

namespace Sys2Proof.Machine

/-! ### The quantised nibble (R98) -/

@[simp] theorem getLsbD_quantise (v : Byte) (n : Nat) :
    (quantise v).getLsbD n = (decide (n < 4) && v.getLsbD (4 + n)) :=
  BitVec.getLsbD_extractLsb' 4 4 v n

theorem toNat_quantise (v : Byte) : (quantise v).toNat = v.toNat / 16 := by
  have hv : v.toNat < 256 := v.isLt
  have hq : (quantise v).toNat = v.toNat >>> 4 % 2 ^ 4 := BitVec.extractLsb'_toNat 4 4 v
  rw [hq, Nat.shiftRight_eq_div_pow]
  omega

theorem quantise_eq_setWidth_shift (v : Byte) : quantise v = (v >>> 4).setWidth 4 := by
  ext n hn
  simp [← BitVec.getLsbD_eq_getElem, hn]

/-- The nibble reads bits 7 to 4 only, so bytes that agree there have one nibble. -/
theorem quantise_congr {v v' : Byte} (h : ∀ n < 4, v.getLsbD (4 + n) = v'.getLsbD (4 + n)) : quantise v = quantise v' := by
  apply BitVec.eq_of_getLsbD_eq
  intro n hn
  simp [h n hn]

theorem getLsbD_upperMask {n : Nat} (h : n < 4) : (0xF0 : Byte).getLsbD (4 + n) = true := by
  revert n
  decide

theorem quantise_and_upperMask (v : Byte) : quantise (v &&& 0xF0) = quantise v := by
  apply quantise_congr
  intro n hn
  rw [BitVec.getLsbD_and, getLsbD_upperMask hn, Bool.and_true]

/-- Settles O4: the nibble as a number, as a shift, bit by bit, and with the low nibble masked off. -/
theorem quantiseTakesUpperNibble : Obligations.QuantiseTakesUpperNibble := by
  intro v
  refine ⟨toNat_quantise v, quantise_eq_setWidth_shift v, ?_, quantise_and_upperMask v⟩
  intro n hn
  rw [getLsbD_quantise, decide_eq_true hn, Bool.true_and]

/-! ### The symbol (R99) -/

theorem symbolOf_eq_setWidth (q : BitVec 4) : symbolOf q = q.setWidth 8 :=
  (BitVec.setWidth_eq_append (by decide)).symm

@[simp] theorem toNat_symbolOf (q : BitVec 4) : (symbolOf q).toNat = q.toNat := by
  rw [symbolOf_eq_setWidth, BitVec.toNat_setWidth_of_le (by decide)]

@[simp] theorem getLsbD_symbolOf (q : BitVec 4) (n : Nat) : (symbolOf q).getLsbD n = q.getLsbD n := by
  rw [← BitVec.testBit_toNat, toNat_symbolOf, BitVec.testBit_toNat]

/-- Masking with 0x0F is the remainder by 16, and v / 16 is below 16 already. -/
theorem symbolOf_quantise (v : Byte) : symbolOf (quantise v) = (v >>> 4) &&& 0x0F := by
  have hv : v.toNat < 256 := v.isLt
  have hmasked : ((v >>> 4) &&& 0x0F).toNat = v.toNat / 16 % 16 := by
    rw [BitVec.toNat_and, BitVec.toNat_ushiftRight, Nat.shiftRight_eq_div_pow]
    exact Nat.and_two_pow_sub_one_eq_mod _ 4
  apply BitVec.eq_of_toNat_eq
  rw [toNat_symbolOf, toNat_quantise, hmasked]
  omega

/-- Settles O5: zero extension of the nibble, and the shift and mask of the byte. -/
theorem symbolIsNibbleZeroExtended : Obligations.SymbolIsNibbleZeroExtended := by
  refine ⟨fun q => ⟨symbolOf_eq_setWidth q, ?_⟩, symbolOf_quantise⟩
  intro n hn
  rw [getLsbD_symbolOf, BitVec.getLsbD_of_ge q n hn]

/-! ### The words of a symbol (R100) -/

theorem bitWord_eq (mark : Word) (bit : Bool) : bitWord mark bit = if bit then 0 else mark := rfl

/-- The eight words as one map over the word's number, which every fact about a single word reads. -/
theorem symbolWords_eq_map (mark : Word) (s : Byte) :
    symbolWords mark s = (List.range 8).map fun n => bitWord mark (s.getLsbD (7 - n)) := rfl

@[simp] theorem length_symbolWords (mark : Word) (s : Byte) : (symbolWords mark s).length = 8 := rfl

theorem getElem?_symbolWords (mark : Word) (s : Byte) {n : Nat} (h : n < 8) :
    (symbolWords mark s)[n]? = some (bitWord mark (s.getLsbD (7 - n))) := by
  rw [symbolWords_eq_map, List.getElem?_map, List.getElem?_range h, Option.map_some]

/-- Settles O6: word n is the word of bit 7 - n. -/
theorem symbolWordsMostSignificantFirst : Obligations.SymbolWordsMostSignificantFirst := by
  intro mark s
  refine ⟨length_symbolWords mark s, ?_⟩
  intro n hn
  rw [getElem?_symbolWords mark s hn, bitWord_eq]

/-! ### The index of a word (R102) -/

theorem ledOfIndex_wordIndex (i : Nat) {c : Nat} (b : Nat) (hc : c < 3) : ledOfIndex (wordIndex i c b) = i := by
  unfold ledOfIndex wordIndex
  omega

theorem channelOfIndex_wordIndex (i : Nat) {c : Nat} (b : Nat) (hc : c < 3) : channelOfIndex (wordIndex i c b) = c := by
  unfold channelOfIndex wordIndex
  omega

theorem bitOfIndex_wordIndex (i c : Nat) {b : Nat} (hb : b < 8) : bitOfIndex (wordIndex i c b) = b := by
  unfold bitOfIndex wordIndex
  omega

theorem wordIndex_of_index (j : Nat) : wordIndex (ledOfIndex j) (channelOfIndex j) (bitOfIndex j) = j := by
  unfold wordIndex ledOfIndex channelOfIndex bitOfIndex
  omega

/-- Settles O9: the three coordinates are read back from the index, and the index from its coordinates. -/
theorem wordIndexHasInverse : Obligations.WordIndexHasInverse := by
  constructor
  · intro i c b hc hb
    exact ⟨rfl, ledOfIndex_wordIndex i b hc, channelOfIndex_wordIndex i b hc, bitOfIndex_wordIndex i c hb⟩
  · intro j
    exact ⟨rfl, rfl, rfl, wordIndex_of_index j⟩

end Sys2Proof.Machine
end

section
/-! ENC8 and its inverse DEC8 (`40_encoder.md` R121, R125): what each answers, word by word and bit by bit, and from these rules
the statements O7 and O10. -/

namespace Sys2Proof.Machine

/-! ### The words of a channel (R121) -/

/-- The mask of R99's other form takes nothing away: the shifted byte is below 16 already. -/
theorem symbolOf_quantise_eq_shift (v : Byte) : symbolOf (quantise v) = v >>> 4 := by
  apply BitVec.eq_of_toNat_eq
  rw [toNat_symbolOf, toNat_quantise, BitVec.toNat_ushiftRight, Nat.shiftRight_eq_div_pow]

theorem channelWords_eq_symbolWords (mark : Word) (v : Byte) : channelWords mark v = symbolWords mark (v >>> 4) := by
  rw [← symbolOf_quantise_eq_shift, channelWords]

theorem length_channelWords (mark : Word) (v : Byte) : (channelWords mark v).length = 8 :=
  length_symbolWords mark _

theorem getElem?_channelWords (mark : Word) (v : Byte) {n : Nat} (h : n < 8) :
    (channelWords mark v)[n]? = some (bitWord mark ((v >>> 4).getLsbD (7 - n))) := by
  rw [channelWords_eq_symbolWords, getElem?_symbolWords mark _ h]

/-! ### DEC8 (R125) -/

theorem dec8_append_singleton (mark : Word) (ws : List Word) (w : Word) :
    dec8 mark (ws ++ [w]) = dec8 mark ws <<< 1 ||| if w = mark then 0 else 1 :=
  List.foldl_append

/-- The bit that one word appends stands at position 0 alone, and is set unless the word is MARK. -/
theorem getLsbD_if_mark (mark w : Word) (j : Nat) :
    (if w = mark then 0 else 1 : Byte).getLsbD j = (decide (j = 0) && decide (w ≠ mark)) := by
  by_cases h : w = mark
  · simp [h]
  · simp [h, BitVec.getLsbD_one]

/-- Bit j of DEC8 reads the j-th word from the end, whatever the number of words: each further word moves the earlier ones up
by one bit. -/
theorem getLsbD_dec8 (mark : Word) (ws : List Word) {j : Nat} (hj : j < 8) :
    (dec8 mark ws).getLsbD j = ws.reverse[j]?.any (· ≠ mark) := by
  induction ws using List.reverseRecOn generalizing j with
  | nil => simp [dec8]
  | append_singleton ws w ih =>
    rw [dec8_append_singleton, BitVec.getLsbD_or, BitVec.getLsbD_shiftLeft, getLsbD_if_mark, List.reverse_concat]
    cases j with
    | zero => simp
    | succ j => simp [ih (show j < 8 by omega), hj]

/-- On eight words the word first transmitted is the most significant bit. -/
theorem getLsbD_dec8_of_length_eq_eight (mark : Word) {ws : List Word} (hlen : ws.length = 8) {n : Nat} (hn : n < 8) :
    (dec8 mark ws).getLsbD (7 - n) = !decide (ws[n]? = some mark) := by
  have hrev : ws.reverse[7 - n]? = ws[n]? := by
    rw [List.getElem?_reverse (by omega), hlen]
    congr 1
    omega
  rw [getLsbD_dec8 mark ws (by omega), hrev, List.getElem?_eq_getElem (by omega)]
  simp

/-- The two words of a bit differ where MARK is not ZERO, so the word tells the bit. -/
theorem bitWord_eq_mark_iff {mark : Word} (h : mark ≠ 0) (bit : Bool) : bitWord mark bit = mark ↔ bit = false := by
  cases bit with
  | false => simp [bitWord_eq]
  | true => simpa [bitWord_eq] using h.symm

theorem dec8_symbolWords {mark : Word} (h : mark ≠ 0) (s : Byte) : dec8 mark (symbolWords mark s) = s := by
  apply BitVec.eq_of_getLsbD_eq
  intro j hj
  have hbit := getLsbD_dec8_of_length_eq_eight mark (length_symbolWords mark s) (n := 7 - j) (by omega)
  have hback : 7 - (7 - j) = j := by omega
  rw [getElem?_symbolWords mark s (by omega), hback] at hbit
  simpa [bitWord_eq_mark_iff h] using hbit

/-- Settles O7: bit by bit on canonical words, and the nibble back from the words of a channel. -/
theorem dec8InvertsEnc8 : Obligations.Dec8InvertsEnc8 := by
  constructor
  · intro mark ws _ hlen _ n hn
    exact getLsbD_dec8_of_length_eq_eight mark hlen hn
  · intro mark v hmark
    rw [channelWords, dec8_symbolWords hmark, symbolOf_eq_setWidth, quantise_eq_setWidth_shift]

/-! ### ENC8 (R121, R170) -/

theorem configured_of_running_or_stopped {l : Lifecycle} (h : l = .running ∨ l = .stopped) : l.configured = true := by
  rcases h with rfl | rfl <;> rfl

theorem not_configured_of_uninit_or_halted {l : Lifecycle} (h : l = .uninit ∨ l = .halted) : l.configured = false := by
  rcases h with rfl | rfl <;> rfl

theorem decode_selector_four (mark : Word) {f : OpForm} (h : f.op = 0x4) : decode mark (.op f) = .ok (.enc8 f.v) := by
  simp [decode, decodeOp, h]

theorem exec_enc8_of_configured (v : Byte) {s : State} (h : s.state.configured = true) :
    exec (.enc8 v) s = .next { s with result := .words (channelWords s.mark v) } :=
  if_pos h

theorem exec_enc8_of_not_configured (v : Byte) {s : State} (h : s.state.configured = false) :
    exec (.enc8 v) s = .refused .notConfigured :=
  if_neg (by simp [h])

/-- Settles O10: selector 4 is ENC8, its words where the block is configured, and its refusal elsewhere. -/
theorem enc8AnswersWords : Obligations.Enc8AnswersWords := by
  refine ⟨fun mark f => decode_selector_four mark, ?_, ?_⟩
  · intro s v hs
    refine ⟨channelWords s.mark v, exec_enc8_of_configured v (configured_of_running_or_stopped hs),
      length_channelWords s.mark v, ?_⟩
    intro n hn
    rw [getElem?_channelWords s.mark v hn, bitWord_eq]
  · intro s v hs
    exact exec_enc8_of_not_configured v (not_configured_of_uninit_or_halted hs)

end Sys2Proof.Machine
end

section
/-! SEQ.SET and SEQ.LATE (`41_sequencer.md` R142, R147): each is one port write at its source's turn. From that rule and the
effect of a port write on every latch, the statements O20 and O21. -/

namespace Sys2Proof.Machine

/-! ### The turn of a source (R158) -/

theorem setTurn_iff (s : State) : setTurn s = true ↔ s.state = .running ∧ s.en = true ∧ s.cntC = 0 := by
  simp [setTurn, and_assoc]

theorem lateTurn_iff (s : State) :
    lateTurn s = true ↔ s.state = .running ∧ s.en = true ∧ s.armL = true ∧ s.cntL = 0 := by
  simp [lateTurn, and_assoc]

/-! ### The events (R142, R147) -/

theorem exec_seqSet_of_setTurn {s : State} (h : setTurn s = true) : exec .seqSet s = .next (portWrite s.setW s) :=
  if_pos h

theorem exec_seqLate_of_lateTurn {s : State} (h : lateTurn s = true) : exec .seqLate s = .next (portWrite s.clrW s) :=
  if_pos h

/-! ### The frame of a port write (R70) -/

/-- A port write changes the latches and the trace, and nothing else. -/
theorem portWrite_eq (v : PortWord) (s : State) :
    portWrite v s = { s with out := (portWrite v s).out, portTrace := v :: s.portTrace } := rfl

/-- An answer that is one port write, told by its latches: the selected port's as the payload makes it, every other port's
as before. -/
theorem exists_latches_of_eq_portWrite {r : Answer} {v : PortWord} {s : State} {w : Word}
    (hr : r = .next (portWrite v s)) (hw : portEffect v (latch s s.portSel) = w) :
    ∃ o : Latches, r = .next { s with out := o, portTrace := v :: s.portTrace } ∧
      sparseGet o s.portSel = w ∧ ∀ port, port ≠ s.portSel → sparseGet o port = latch s port := by
  refine ⟨(portWrite v s).out, hr.trans (congrArg _ (portWrite_eq v s)), ?_, ?_⟩
  · exact ((latch_portWrite v s s.portSel).trans (if_pos rfl)).trans hw
  · intro port hport
    exact (latch_portWrite v s port).trans (if_neg hport)

/-- Settles O20: at its turn SEQ.SET writes SETW, the mask in the set half. -/
theorem seqSetRaisesMaskedPins : Obligations.SeqSetRaisesMaskedPins := by
  refine ⟨fun _ => rfl, ?_⟩
  intro s hrun hen hcnt hset
  have hexec := exec_seqSet_of_setTurn ((setTurn_iff s).mpr ⟨hrun, hen, hcnt⟩)
  have heffect : portEffect s.setW (latch s s.portSel) = latch s s.portSel ||| s.pinMask := by
    rw [hset, portEffect_set]
  exact exists_latches_of_eq_portWrite hexec heffect

/-- Settles O21: at its turn SEQ.LATE writes CLRW, the mask in the clear half. -/
theorem seqLateLowersMaskedPins : Obligations.SeqLateLowersMaskedPins := by
  refine ⟨fun _ => rfl, ?_⟩
  intro s hrun hen harm hcnt hclr
  have hexec := exec_seqLate_of_lateTurn ((lateTurn_iff s).mpr ⟨hrun, hen, harm, hcnt⟩)
  have heffect : portEffect s.clrW (latch s s.portSel) = latch s s.portSel &&& ~~~s.pinMask := by
    rw [hclr, portEffect_clear]
  exact exists_latches_of_eq_portWrite hexec heffect

end Sys2Proof.Machine
end

section
/-! The decoder against the encoder and against the reserved encodings (`30_encoding.md` R103 to R106), and the statements O1, O2
and O3. -/

namespace Sys2Proof.Machine

/-! ### Decoding what was encoded (R91, R92, R96, R97) -/

@[simp] theorem decode_op (mark : Word) (f : OpForm) : decode mark (.op f) = decodeOp f := rfl

theorem quantise_symbolOf (q : BitVec 4) : quantise (symbolOf q) = 0 := by
  apply BitVec.eq_of_toNat_eq
  rw [toNat_quantise, toNat_symbolOf, Nat.div_eq_of_lt q.isLt]
  rfl

theorem extractLsb'_symbolOf (q : BitVec 4) : (symbolOf q).extractLsb' 0 4 = q := by
  apply BitVec.eq_of_getLsbD_eq
  intro n hn
  simp [hn]

theorem decodeSymbol_symbolOf (q : BitVec 4) : decodeSymbol (symbolOf q) = .ok (.sym q) := by
  have hupper : (symbolOf q).extractLsb' 4 4 = 0 := quantise_symbolOf q
  rw [decodeSymbol, if_pos hupper, extractLsb'_symbolOf]

theorem decodeWord_zero (mark : Word) : decodeWord mark 0 = .ok .t1 := rfl

theorem decodeWord_mark {mark : Word} (h : mark ≠ 0) : decodeWord mark mark = .ok (.t0 mark) := by
  rw [decodeWord, if_neg h, if_pos rfl]

/-- Settles O1: words and symbols by the two rules above; every operation's selector and every event's id select their own
branch. -/
theorem decodeOfEncodeIsIdentity : Obligations.DecodeOfEncodeIsIdentity := by
  intro wordBits mark i hwf hmark
  cases i with
  | t1 => exact decodeWord_zero mark
  | t0 m =>
    obtain rfl : m = mark := hmark m rfl
    have hm : m ≠ 0 := by
      rintro rfl
      simp [Instr.wellFormed] at hwf
    exact decodeWord_mark hm
  | sym q => exact decodeSymbol_symbolOf q
  | init n port mask => rfl
  | stop => rfl
  | start => rfl
  | enc8 v => rfl
  | encrgb i r g b => rfl
  | fbwr i w => rfl
  | fbrd i => rfl
  | seqSet => rfl
  | seqEarly => rfl
  | seqLate => rfl

/-- Settles O2: each written-out value evaluates to its instruction. -/
theorem specEncodingsDecode : Obligations.SpecEncodingsDecode :=
  ⟨rfl, rfl, rfl, rfl, rfl, rfl, rfl, rfl, rfl, rfl, rfl, rfl, rfl⟩

/-! ### Reserved encodings (R105, R106) -/

theorem decodeWord_malformed {mark w : Word} (h0 : w ≠ 0) (hm : w ≠ mark) :
    decodeWord mark w = .error (.malformedWord w) := by
  rw [decodeWord, if_neg h0, if_neg hm]

theorem decodeSymbol_of_le {b : Byte} (h : 16 ≤ b.toNat) : decodeSymbol b = .error (.notASymbol b) := by
  have hupper : ¬ quantise b = 0 := by
    intro hq
    have hnat : b.toNat / 16 = 0 := by rw [← toNat_quantise, hq]; rfl
    omega
  exact if_neg hupper

/-- A selector outside 1 to 7 passes every test of the decoder. -/
theorem decodeOp_reserved {f : OpForm} (h : f.op.toNat = 0 ∨ 8 ≤ f.op.toNat) :
    decodeOp f = .error (.reservedSelector f.op) := by
  have hne : ∀ k : BitVec 4, 1 ≤ k.toNat → k.toNat < 8 → f.op ≠ k := by
    rintro k hlo hhi rfl
    omega
  rw [decodeOp, if_neg (hne 0x1 (by decide) (by decide)), if_neg (hne 0x2 (by decide) (by decide)),
    if_neg (hne 0x3 (by decide) (by decide)), if_neg (hne 0x4 (by decide) (by decide)),
    if_neg (hne 0x5 (by decide) (by decide)), if_neg (hne 0x6 (by decide) (by decide)),
    if_neg (hne 0x7 (by decide) (by decide))]

/-- With an operation at the head of the schedule and no write pending, the HOST issues it. -/
theorem step_op {s : State} {rest : List Input} {f : OpForm} (h : s.inbox = .op f :: rest) (hp : s.pendingWrites = []) :
    step s = issue f { s with inbox := rest } := by
  simp [step, moveNext, h, takeInput, hp]

theorem issue_of_decodeOp_error {f : OpForm} {e : DecodeError} (h : decodeOp f = .error e) (s : State) :
    issue f s = .refused (.undecodable e) := by
  simp [issue, h]

theorem issueSplit_of_decodeOp_error {f : OpForm} {e : DecodeError} (h : decodeOp f = .error e) (s : State) :
    issueSplit f s = .refused (.undecodable e) := by
  simp [issueSplit, h]

/-- Settles O3: each format's reserved values, and the step's refusal of a reserved selector issued whole or split. -/
theorem reservedEncodingsAreRejected : Obligations.ReservedEncodingsAreRejected := by
  refine ⟨fun mark w h0 hm => decodeWord_malformed h0 hm, fun mark f h => decodeOp_reserved h, fun mark => rfl,
    fun mark b h => decodeSymbol_of_le h, ?_⟩
  intro s f rest hop hin hp
  rcases hin with hin | hin
  · rw [step_op hin hp, issue_of_decodeOp_error (decodeOp_reserved hop)]
  · rw [step_split hin hp, issueSplit_of_decodeOp_error (decodeOp_reserved hop)]

end Sys2Proof.Machine
end

section
/-! The memory laws of the frame buffer (`20_memory.md` R64 to R67): one word written, then a sequence of words. The statement
O14, and the rules that ENCRGB, FBWR and the fetch rest on. -/

namespace Sys2Proof.Machine

/-! ### One word -/

theorem wordStride_eq_one_or_two {c : Config} (h : c.wf = true) : wordStride c = 1 ∨ wordStride c = 2 :=
  (wordStride_cases h).imp And.left And.left

section Stride
variable {stride : Nat} (hs : stride = 1 ∨ stride = 2)
include hs

theorem readByte_writeWord_outside (m : Memory) (w : Word) {i a : Nat}
    (h : a < wordAddress stride i ∨ wordAddress stride (i + 1) ≤ a) :
    (m.writeWord stride i w).readByte a = m.readByte a := by
  unfold wordAddress at h
  rcases hs with rfl | rfl
  · have ha : a ≠ wordAddress 1 i := by unfold wordAddress; omega
    rw [Memory.writeWord, if_pos rfl, readByte_writeByte, if_neg ha]
  · have hlow : a ≠ wordAddress 2 i := by unfold wordAddress; omega
    have hhigh : a ≠ wordAddress 2 i + 1 := by unfold wordAddress; omega
    rw [Memory.writeWord, if_neg (by decide), readByte_writeByte, if_neg hhigh, readByte_writeByte, if_neg hlow]

/-- A word is a function of the bytes at its own addresses. -/
theorem readWord_congr {m m' : Memory} {i : Nat}
    (h : ∀ a, wordAddress stride i ≤ a → a < wordAddress stride (i + 1) → m'.readByte a = m.readByte a) :
    m'.readWord stride i = m.readWord stride i := by
  unfold Memory.readWord
  rcases hs with rfl | rfl
  · rw [if_pos rfl, if_pos rfl, h _ (by omega) (by unfold wordAddress; omega)]
  · rw [if_neg (by decide), if_neg (by decide), h _ (by omega) (by unfold wordAddress; omega),
      h _ (by omega) (by unfold wordAddress; omega)]

theorem wordAddress_mono {i j : Nat} (h : i ≤ j) : wordAddress stride i ≤ wordAddress stride j := by
  rcases hs with rfl | rfl <;> unfold wordAddress <;> omega

theorem readWord_writeWord_other (m : Memory) (w : Word) {i j : Nat} (h : j ≠ i) :
    (m.writeWord stride i w).readWord stride j = m.readWord stride j := by
  apply readWord_congr hs
  intro a hlo hhi
  apply readByte_writeWord_outside hs
  rcases Nat.lt_or_gt_of_ne h with hlt | hgt
  · exact .inl (hhi.trans_le (wordAddress_mono hs hlt))
  · exact .inr ((wordAddress_mono hs hgt).trans hlo)

end Stride

/-- A word below 2^8 is its lower byte. -/
theorem setWidth_setWidth_of_lt {w : Word} (h : w.toNat < 2 ^ 8) : (w.setWidth 8).setWidth 16 = w := by
  apply BitVec.eq_of_toNat_eq
  have hw := w.isLt
  rw [BitVec.toNat_setWidth, BitVec.toNat_setWidth, Nat.mod_eq_of_lt h, Nat.mod_eq_of_lt hw]

theorem append_bytes (w : Word) : (w.extractLsb' 8 8 ++ w.extractLsb' 0 8 : Word) = w := by
  apply BitVec.eq_of_getLsbD_eq
  intro n hn
  rw [BitVec.getLsbD_append, BitVec.getLsbD_extractLsb', BitVec.getLsbD_extractLsb']
  by_cases h : n < 8
  · simp [h]
  · have hhigh : n - 8 < 8 := by omega
    have hback : 8 + (n - 8) = n := by omega
    simp [h, hhigh, hback]

theorem readWord_writeWord_same {c : Config} (hc : c.wf = true) (m : Memory) (i : Nat) {w : Word}
    (hw : w.toNat < 2 ^ c.wordBits) : (m.writeWord (wordStride c) i w).readWord (wordStride c) i = w := by
  unfold Memory.readWord Memory.writeWord
  rcases wordStride_cases hc with ⟨hs, hbits⟩ | ⟨hs, -⟩
  · have hbyte : w.toNat < 2 ^ 8 := hw.trans_le (Nat.pow_le_pow_right (by decide) hbits)
    rw [if_pos hs, if_pos hs, readByte_writeByte, if_pos rfl, setWidth_setWidth_of_lt hbyte]
  · have hne : ¬ wordStride c = 1 := by omega
    rw [if_neg hne, if_neg hne, readByte_writeByte, if_pos rfl, readByte_writeByte, if_neg (by omega),
      readByte_writeByte, if_pos rfl, append_bytes]

/-- Settles O14: the word itself, every other word, every byte outside it. -/
theorem wordWriteThenRead : Obligations.WordWriteThenRead := by
  intro c m i w hc hw
  have hs := wordStride_eq_one_or_two hc
  exact ⟨readWord_writeWord_same hc m i hw, fun j hj => readWord_writeWord_other hs m w hj,
    fun a ha => readByte_writeWord_outside hs m w ha⟩

/-! ### A sequence of words (`40_encoder.md` R124) -/

/-- The buffer after single-word writes in order: what `memWriteAll` leaves in FB (`memWriteAll_eq`). -/
def writeWords (stride : Nat) (m : Memory) (ws : List (Nat × Word)) : Memory :=
  ws.foldl (fun m p => m.writeWord stride p.1 p.2) m

@[simp] theorem writeWords_nil (stride : Nat) (m : Memory) : writeWords stride m [] = m := rfl
@[simp] theorem writeWords_cons (stride : Nat) (m : Memory) (p : Nat × Word) (ws : List (Nat × Word)) :
    writeWords stride m (p :: ws) = writeWords stride (m.writeWord stride p.1 p.2) ws := rfl

theorem memWrite_of_lt {s : State} {m : Memory} {i : Nat} (w : Word) (hfb : s.fb = some m) (hi : i < s.fbLen.toNat) :
    memWrite i w s = .next { s with fb := some (m.writeWord (wordStride s.cfg) i w) } := by
  simp [memWrite, hfb, hi]

theorem memRead_of_lt {s : State} {m : Memory} {i : Nat} (hfb : s.fb = some m) (hi : i < s.fbLen.toNat) :
    memRead s i = some (m.readWord (wordStride s.cfg) i) :=
  memRead_eq_some.mpr ⟨m, hfb, hi, rfl⟩

theorem memWriteAll_eq {s : State} {m : Memory} {ws : List (Nat × Word)} (hfb : s.fb = some m)
    (hws : ∀ p ∈ ws, p.1 < s.fbLen.toNat) :
    memWriteAll ws s = .next { s with fb := some (writeWords (wordStride s.cfg) m ws) } := by
  induction ws generalizing s m with
  | nil => rw [memWriteAll, writeWords_nil, ← hfb]
  | cons p ws ih =>
    rw [memWriteAll, memWrite_of_lt p.2 hfb (hws p List.mem_cons_self), andThen_next]
    exact ih rfl fun q hq => hws q (List.mem_cons_of_mem p hq)

theorem mem_consecutive {k : Nat} {ws : List Word} {p : Nat × Word} (h : p ∈ consecutive k ws) :
    k ≤ p.1 ∧ p.1 < k + ws.length ∧ p.2 ∈ ws := by
  induction ws generalizing k with
  | nil => cases h
  | cons w ws ih =>
    rw [List.length_cons]
    rcases List.mem_cons.mp h with rfl | h
    · exact ⟨le_refl k, by omega, List.mem_cons_self⟩
    · obtain ⟨hlo, hhi, hmem⟩ := ih h
      exact ⟨by omega, by omega, List.mem_cons_of_mem w hmem⟩

theorem readByte_writeWords_outside {stride : Nat} (hs : stride = 1 ∨ stride = 2) (m : Memory) (ws : List Word) {k a : Nat}
    (h : a < wordAddress stride k ∨ wordAddress stride (k + ws.length) ≤ a) :
    (writeWords stride m (consecutive k ws)).readByte a = m.readByte a := by
  induction ws generalizing m k with
  | nil => rfl
  | cons w ws ih =>
    rw [List.length_cons] at h
    have hfirst : a < wordAddress stride k ∨ wordAddress stride (k + 1) ≤ a :=
      h.imp_right (wordAddress_mono hs (by omega)).trans
    have hrest : a < wordAddress stride (k + 1) ∨ wordAddress stride (k + 1 + ws.length) ≤ a :=
      h.imp (fun h => h.trans_le (wordAddress_mono hs (by omega))) fun h => by rwa [Nat.add_assoc, Nat.add_comm 1]
    rw [consecutive, writeWords_cons, ih _ hrest, readByte_writeWord_outside hs m w hfirst]

/-- After the writes of consecutive words each stands at its own index: the later writes go to later words. -/
theorem readWord_writeWords {c : Config} (hc : c.wf = true) (m : Memory) {ws : List Word} {k n : Nat} {w : Word}
    (hfit : ∀ w ∈ ws, w.toNat < 2 ^ c.wordBits) (hn : ws[n]? = some w) :
    (writeWords (wordStride c) m (consecutive k ws)).readWord (wordStride c) (k + n) = w := by
  have hs := wordStride_eq_one_or_two hc
  induction ws generalizing m k n with
  | nil => cases hn
  | cons v ws ih =>
    rw [consecutive, writeWords_cons]
    cases n with
    | zero =>
      obtain rfl : v = w := by simpa using hn
      have hlater : ∀ a, wordAddress (wordStride c) k ≤ a → a < wordAddress (wordStride c) (k + 1) →
          (writeWords (wordStride c) (m.writeWord (wordStride c) k v) (consecutive (k + 1) ws)).readByte a =
            (m.writeWord (wordStride c) k v).readByte a :=
        fun a _ hhi => readByte_writeWords_outside hs _ ws (.inl hhi)
      exact (readWord_congr hs hlater).trans (readWord_writeWord_same hc m k (hfit v List.mem_cons_self))
    | succ n =>
      have hrest : ws[n]? = some w := by simpa using hn
      have hindex : k + (n + 1) = k + 1 + n := by omega
      rw [hindex]
      exact ih _ (fun w hw => hfit w (List.mem_cons_of_mem v hw)) hrest

end Sys2Proof.Machine
end

section
/-! The port register pin by pin (`20_memory.md` R69, R70), and the early-reset source: the timing words T1 and T0 and the event
SEQ.EARLY (`41_sequencer.md` R143 to R146). The statements O19, O22 to O25 and, for all three sources, O26. -/

namespace Sys2Proof.Machine

/-! ### A port write, pin by pin (R69, R70) -/

theorem getLsbD_portEffect (v : PortWord) (old : Word) {p : Nat} (hp : p < 16) :
    (portEffect v old).getLsbD p = if v.getLsbD p then true else if v.getLsbD (16 + p) then false else old.getLsbD p := by
  simp only [portEffect, BitVec.getLsbD_or, BitVec.getLsbD_and, BitVec.getLsbD_not, BitVec.getLsbD_extractLsb', hp,
    Nat.zero_add, decide_true, Bool.true_and]
  cases v.getLsbD p <;> cases v.getLsbD (16 + p) <;> simp

theorem portEffect_idem (v : PortWord) (old : Word) : portEffect v (portEffect v old) = portEffect v old := by
  apply BitVec.eq_of_getLsbD_eq
  intro p hp
  rw [getLsbD_portEffect v _ hp, getLsbD_portEffect v old hp]
  split_ifs <;> rfl

theorem latch_portWrite_sel (v : PortWord) (s : State) :
    latch (portWrite v s) s.portSel = portEffect v (latch s s.portSel) :=
  (latch_portWrite v s s.portSel).trans (if_pos rfl)

theorem latch_portWrite_other (v : PortWord) (s : State) {port : PortId} (h : port ≠ s.portSel) :
    latch (portWrite v s) port = latch s port :=
  (latch_portWrite v s port).trans (if_neg h)

theorem latch_portWrite_twice (v : PortWord) (s : State) (port : PortId) :
    latch (portWrite v (portWrite v s)) port = latch (portWrite v s) port := by
  by_cases h : port = s.portSel
  · subst h
    have htwice := latch_portWrite_sel v (portWrite v s)
    rw [portWrite_portSel, latch_portWrite_sel, portEffect_idem] at htwice
    rw [htwice, latch_portWrite_sel]
  · exact latch_portWrite_other v (portWrite v s) h

/-- Settles O19: each pin of the selected port, the other ports, the frame, and a repeated write. -/
theorem portWriteActsPerPin : Obligations.PortWriteActsPerPin := by
  intro v s
  refine ⟨?_, fun port h => latch_portWrite_other v s h, portWrite_eq v s, latch_portWrite_twice v s⟩
  intro p hp
  rw [latch_portWrite_sel, getLsbD_portEffect v _ hp]

/-! ### The timing words (R144, R145) -/

theorem earlyTurn_iff (s : State) :
    earlyTurn s = true ↔ s.state = .running ∧ s.en = true ∧ s.armE = true ∧ s.cntE = 0 := by
  simp [earlyTurn, and_assoc]

theorem portEffect_zero (old : Word) : portEffect 0 old = old := by
  apply BitVec.eq_of_getLsbD_eq
  intro p hp
  rw [getLsbD_portEffect 0 old hp]
  simp

theorem latch_portWrite_zero (s : State) (port : PortId) : latch (portWrite 0 s) port = latch s port := by
  by_cases h : port = s.portSel
  · rw [h, latch_portWrite_sel, portEffect_zero]
  · exact latch_portWrite_other 0 s h

theorem exec_t1_of_earlyTurn {s : State} (h : earlyTurn s = true) : exec .t1 s = .next (portWrite 0 s) :=
  if_pos h

theorem exec_t0_of_mark {s : State} (h : earlyTurn s = true) (hmark : s.mark ≠ 0) :
    exec (.t0 s.mark) s = .next (portWrite (s.mark ++ 0#16) s) := by
  have hcanonical : ¬(s.mark = zeroWord ∨ s.mark ≠ s.mark) := by simpa using hmark
  simp only [exec, execT0, h, Bool.not_true, Bool.false_eq_true, if_false, if_neg hcanonical, earlyPayload_eq]

theorem exec_t0_of_not_mark {s : State} {m : Word} (h : earlyTurn s = true) (hm : m = 0 ∨ m ≠ s.mark) :
    exec (.t0 m) s = .next (takeFault (.malformedFetch s.pos.toNat m) s) := by
  have hbad : m = zeroWord ∨ m ≠ s.mark := hm
  simp only [exec, execT0, h, Bool.not_true, Bool.false_eq_true, if_false, if_pos hbad]

/-- Settles O22: the write of 0 leaves every latch. -/
theorem t1ChangesNoPin : Obligations.T1ChangesNoPin := by
  intro s hrun hen harm hcnt
  have hexec := exec_t1_of_earlyTurn ((earlyTurn_iff s).mpr ⟨hrun, hen, harm, hcnt⟩)
  exact ⟨(portWrite 0 s).out, hexec.trans (congrArg _ (portWrite_eq 0 s)), latch_portWrite_zero s⟩

/-- Settles O23: MARK is written in the clear half; any other word is malformed. -/
theorem t0LowersMaskedPins : Obligations.T0LowersMaskedPins := by
  constructor
  · intro s hrun hen harm hcnt hmark hne
    have hexec : exec (.t0 s.mark) s = .next (portWrite (s.pinMask ++ 0#16) s) := by
      rw [exec_t0_of_mark ((earlyTurn_iff s).mpr ⟨hrun, hen, harm, hcnt⟩) hne, hmark]
    exact exists_latches_of_eq_portWrite hexec (portEffect_clear s.pinMask _)
  · intro s m hrun hen harm hcnt hm
    exact exec_t0_of_not_mark ((earlyTurn_iff s).mpr ⟨hrun, hen, harm, hcnt⟩) hm

/-! ### SEQ.EARLY (R143, R146) -/

/-- SEQ.EARLY executes what the fetched word decodes to, then advances POS. -/
theorem exec_seqEarly_of_decode {s : State} {w : Word} {i : Instr} (h : earlyTurn s = true)
    (hread : memRead s s.pos.toNat = some w) (hdec : decodeWord s.mark w = .ok i) :
    exec .seqEarly s = andThen (exec i s) fun t => .next (advancePos t) := by
  have hdec' : decode s.mark (.tw w) = .ok i := hdec
  rcases decodeWord_ok hdec with ⟨-, rfl⟩ | ⟨-, rfl⟩ <;>
    simp only [exec, execSeqEarly, h, Bool.not_true, Bool.false_eq_true, if_false, hread, hdec']

/-- A canonical word is played: it is written in the clear half, and POS is advanced. -/
theorem exec_seqEarly_of_canonical {s : State} {w : Word} (h : earlyTurn s = true)
    (hread : memRead s s.pos.toNat = some w) (hw : w = 0 ∨ w = s.mark) :
    exec .seqEarly s = .next (advancePos (portWrite (w ++ 0#16) s)) := by
  by_cases h0 : w = 0
  · subst h0
    rw [exec_seqEarly_of_decode h hread (decodeWord_zero s.mark), exec_t1_of_earlyTurn h, andThen_next]
    rfl
  · obtain rfl := hw.resolve_left h0
    rw [exec_seqEarly_of_decode h hread (decodeWord_mark h0), exec_t0_of_mark h h0, andThen_next]

theorem exec_seqEarly_of_malformed {s : State} {w : Word} (h : earlyTurn s = true)
    (hread : memRead s s.pos.toNat = some w) (h0 : w ≠ 0) (hm : w ≠ s.mark) :
    exec .seqEarly s = .next (takeFault (.malformedFetch s.pos.toNat w) s) := by
  have hdec : decode s.mark (.tw w) = .error (.malformedWord w) := decodeWord_malformed h0 hm
  simp only [exec, execSeqEarly, h, Bool.not_true, Bool.false_eq_true, if_false, hread, hdec]

theorem toNat_advancePos {s : State} (h : s.pos.toNat < s.fbLen.toNat) :
    (advancePos s).pos.toNat = (s.pos.toNat + 1) % s.fbLen.toNat := by
  have hlen := s.fbLen.isLt
  have hmod : (s.pos.toNat + 1) % s.fbLen.toNat < s.fbLen.toNat := Nat.mod_lt _ (by omega)
  rw [advancePos, BitVec.toNat_ofNat, Nat.mod_eq_of_lt (by omega)]

/-- The advance in R146's other form: by one, and to 0 at FBLEN. -/
theorem toNat_advancePos_eq_ite {s : State} (h : s.pos.toNat < s.fbLen.toNat) :
    (advancePos s).pos.toNat = if s.pos.toNat + 1 = s.fbLen.toNat then 0 else s.pos.toNat + 1 := by
  rw [toNat_advancePos h]
  split_ifs with hwrap
  · rw [hwrap, Nat.mod_self]
  · exact Nat.mod_eq_of_lt (by omega)

/-- Settles O24: the word at POS in the clear half, and POS advanced with the wrap. -/
theorem seqEarlyPlaysWord : Obligations.SeqEarlyPlaysWord := by
  rintro s m w hrun hen harm hcnt hfb hpos rfl hw
  have hexec := exec_seqEarly_of_canonical ((earlyTurn_iff s).mpr ⟨hrun, hen, harm, hcnt⟩) (memRead_of_lt hfb hpos) hw
  refine ⟨_, (advancePos s).pos, hexec, toNat_advancePos_eq_ite hpos, ?_, ?_⟩
  · exact (latch_portWrite_sel _ s).trans (portEffect_clear _ _)
  · exact fun port hport => latch_portWrite_other _ s hport

/-- Settles O25: a malformed word is taken as MalformedWord at the fetch. -/
theorem seqEarlyMalformedHalts : Obligations.SeqEarlyMalformedHalts := by
  rintro s m w hrun hen harm hcnt hfb hpos rfl h0 hm
  exact exec_seqEarly_of_malformed ((earlyTurn_iff s).mpr ⟨hrun, hen, harm, hcnt⟩) (memRead_of_lt hfb hpos) h0 hm

/-! ### Events out of turn (log entry 13) -/

theorem exec_seqSet_of_not_setTurn {s : State} (h : ¬ setTurn s = true) : exec .seqSet s = .refused .eventNotEnabled :=
  if_neg h

theorem exec_seqLate_of_not_lateTurn {s : State} (h : ¬ lateTurn s = true) :
    exec .seqLate s = .refused .eventNotEnabled :=
  if_neg h

theorem exec_t1_of_not_earlyTurn {s : State} (h : ¬ earlyTurn s = true) : exec .t1 s = .refused .eventNotEnabled :=
  if_neg h

theorem exec_t0_of_not_earlyTurn (m : Word) {s : State} (h : ¬ earlyTurn s = true) :
    exec (.t0 m) s = .refused .eventNotEnabled :=
  if_pos (by simpa using h)

theorem exec_seqEarly_of_not_earlyTurn {s : State} (h : ¬ earlyTurn s = true) :
    exec .seqEarly s = .refused .eventNotEnabled :=
  if_pos (by simpa using h)

/-- Settles O26: out of turn each event, and each timing word, takes its refusing branch. -/
theorem eventsOutOfTurnAreRefused : Obligations.EventsOutOfTurnAreRefused := by
  intro s
  refine ⟨?_, ?_, ?_⟩
  · intro h
    exact exec_seqSet_of_not_setTurn (by rw [setTurn_iff]; grind)
  · intro h
    have hturn : ¬ earlyTurn s = true := by rw [earlyTurn_iff]; grind
    exact ⟨exec_seqEarly_of_not_earlyTurn hturn, exec_t1_of_not_earlyTurn hturn,
      fun m => exec_t0_of_not_earlyTurn m hturn⟩
  · intro h
    exact exec_seqLate_of_not_lateTurn (by rw [lateTurn_iff]; grind)

end Sys2Proof.Machine
end

section
/-! A colour's block of 24 words and the HOST's accesses to the frame buffer: the encoder's algebra (`40_encoder.md` R126), SYM,
ENCRGB (R123), FBWR and FBRD (`43_host_interface.md` R190, R191). The statements O8, O11, O12 and O15 to O18. -/

namespace Sys2Proof.Machine

/-! ### The words of a symbol, a channel and a block -/

theorem symbolWords_inj {mark : Word} (h : mark ≠ 0) {x y : Byte} : symbolWords mark x = symbolWords mark y ↔ x = y := by
  refine ⟨fun heq => ?_, congrArg _⟩
  rw [← dec8_symbolWords h x, heq, dec8_symbolWords h]

theorem channelWords_inj {mark : Word} (h : mark ≠ 0) {v v' : Byte} :
    channelWords mark v = channelWords mark v' ↔ v >>> 4 = v' >>> 4 := by
  rw [channelWords_eq_symbolWords, channelWords_eq_symbolWords, symbolWords_inj h]

theorem length_blockWords (mark : Word) (r g b : Byte) : (blockWords mark r g b).length = 24 := rfl

/-- The three channels of a block have one length, so equal blocks have equal channels. -/
theorem blockWords_inj {mark : Word} {r g b r' g' b' : Byte} (h : blockWords mark r g b = blockWords mark r' g' b') :
    channelWords mark r = channelWords mark r' ∧ channelWords mark g = channelWords mark g' ∧
      channelWords mark b = channelWords mark b' := by
  have hlen : ∀ v v' : Byte, (channelWords mark v).length = (channelWords mark v').length := fun _ _ => rfl
  obtain ⟨hgr, hb⟩ := List.append_inj h rfl
  obtain ⟨hg, hr⟩ := List.append_inj hgr (hlen g g')
  exact ⟨hr, hg, hb⟩

/-- Word 8 c + (7 - k) of a block is the word of bit k of channel c, Green, Red, Blue. -/
theorem getElem?_blockWords (mark : Word) (r g b : Byte) {k : Nat} (hk : k < 8) :
    (blockWords mark r g b)[7 - k]? = some (bitWord mark ((g >>> 4).getLsbD k)) ∧
      (blockWords mark r g b)[8 + (7 - k)]? = some (bitWord mark ((r >>> 4).getLsbD k)) ∧
      (blockWords mark r g b)[16 + (7 - k)]? = some (bitWord mark ((b >>> 4).getLsbD k)) := by
  have hword : ∀ v : Byte, (channelWords mark v)[7 - k]? = some (bitWord mark ((v >>> 4).getLsbD k)) := by
    intro v
    rw [getElem?_channelWords mark v (by omega)]
    congr 3
    omega
  have hlen := length_channelWords mark
  unfold blockWords
  refine ⟨?_, ?_, ?_⟩
  · rw [List.append_assoc, List.getElem?_append_left (by rw [hlen]; omega), hword]
  · rw [List.append_assoc, List.getElem?_append_right (by rw [hlen]; omega),
      List.getElem?_append_left (by rw [hlen, hlen]; omega), hlen, Nat.add_sub_cancel_left, hword]
  · rw [List.getElem?_append_right (by rw [List.length_append, hlen, hlen]; omega), List.length_append, hlen, hlen,
      Nat.add_sub_cancel_left, hword]

/-- The four upper bits of a symbol are zero, so the first four words of a channel are MARK. -/
theorem getElem?_blockWords_of_mod_lt (mark : Word) (r g b : Byte) {n : Nat} (hn : n < 24) (hmod : n % 8 < 4) :
    (blockWords mark r g b)[n]? = some mark := by
  have hbit : ∀ v : Byte, (v >>> 4).getLsbD (7 - n % 8) = false := by
    intro v
    rw [BitVec.getLsbD_ushiftRight]
    exact BitVec.getLsbD_of_ge v _ (by omega)
  obtain ⟨hg, hr, hb⟩ := getElem?_blockWords mark r g b (k := 7 - n % 8) (by omega)
  rw [hbit, bitWord_eq, if_neg Bool.false_ne_true] at hg hr hb
  have hcase : n = 7 - (7 - n % 8) ∨ n = 8 + (7 - (7 - n % 8)) ∨ n = 16 + (7 - (7 - n % 8)) := by omega
  rcases hcase with h | h | h
  · rw [h, hg]
  · rw [h, hr]
  · rw [h, hb]

/-- Settles O8: DEC8 inverts the words of a symbol, and the channels of a block stand side by side. -/
theorem encoderFactorsThroughNibble : Obligations.EncoderFactorsThroughNibble := by
  intro mark hmark
  refine ⟨fun v v' => channelWords_inj hmark, ?_, fun r g b n hn hmod => getElem?_blockWords_of_mod_lt mark r g b hn hmod⟩
  intro r g b r' g' b' heq
  obtain ⟨hr, hg, hb⟩ := blockWords_inj heq
  exact ⟨(channelWords_inj hmark).mp hr, (channelWords_inj hmark).mp hg, (channelWords_inj hmark).mp hb⟩

theorem bitWord_canonical (mark : Word) (bit : Bool) : bitWord mark bit = 0 ∨ bitWord mark bit = mark := by
  cases bit with
  | false => exact .inr rfl
  | true => exact .inl rfl

theorem eq_zero_or_mark_of_mem_channelWords {mark w : Word} {v : Byte} (h : w ∈ channelWords mark v) :
    w = 0 ∨ w = mark := by
  rw [channelWords, symbolWords_eq_map] at h
  obtain ⟨n, -, rfl⟩ := List.mem_map.mp h
  exact bitWord_canonical mark _

theorem eq_zero_or_mark_of_mem_blockWords {mark w : Word} {r g b : Byte} (h : w ∈ blockWords mark r g b) :
    w = 0 ∨ w = mark := by
  rcases List.mem_append.mp h with h | h
  · rcases List.mem_append.mp h with h | h <;> exact eq_zero_or_mark_of_mem_channelWords h
  · exact eq_zero_or_mark_of_mem_channelWords h

theorem toNat_lt_of_canonical {n : Nat} {mark w : Word} (hmark : mark.toNat < 2 ^ n) (hw : w = 0 ∨ w = mark) :
    w.toNat < 2 ^ n := by
  rcases hw with rfl | rfl
  · exact Nat.two_pow_pos n
  · exact hmark

/-! ### SYM (R92) -/

theorem exec_sym_of_configured (q : BitVec 4) {s : State} (h : s.state.configured = true) :
    exec (.sym q) s = .next { s with result := .words (symbolWords s.mark (symbolOf q)) } :=
  if_pos h

theorem exec_sym_of_not_configured (q : BitVec 4) {s : State} (h : s.state.configured = false) :
    exec (.sym q) s = .refused .notConfigured :=
  if_neg (by simp [h])

/-- Settles O11: the words of the symbol, the refusal, and ENC8 as the SYM of the upper nibble. -/
theorem symAnswersWordsOfSymbol : Obligations.SymAnswersWordsOfSymbol := by
  refine ⟨?_, ?_, fun s v => rfl⟩
  · intro s q hs
    refine ⟨_, exec_sym_of_configured q (configured_of_running_or_stopped hs), length_symbolWords _ _, ?_⟩
    intro n hn
    rw [getElem?_symbolWords _ _ hn, bitWord_eq, symbolOf_eq_setWidth]
  · intro s q hs
    exact exec_sym_of_not_configured q (not_configured_of_uninit_or_halted hs)

/-! ### ENCRGB (R123) -/

/-- R216 d: what a breach of the HOST leaves, the operation's result and the recorded fault. -/
abbrev breached (r : Raise) (s : State) : State := returning .none (takeFault r s)

section BlockCommand
variable (i : BitVec 16) (act : State → Answer) {s : State}

theorem blockCommand_of_not_configured (h : s.state.configured = false) :
    blockCommand i act s = .refused .notConfigured :=
  if_pos (by simp [h])

theorem blockCommand_of_le (h : s.state.configured = true) (hi : s.ledCount.toNat ≤ i.toNat) :
    blockCommand i act s = .next (breached (.fbIndexOutOfRange (24 * i.toNat)) s) :=
  (if_neg (by simp [h])).trans (if_pos hi)

theorem blockCommand_of_lt (h : s.state.configured = true) (hi : i.toNat < s.ledCount.toNat) :
    blockCommand i act s = act (returning .none s) :=
  (if_neg (by simp [h])).trans (if_neg (by omega))

end BlockCommand

/-- The writes of a block of LED i go to the 24 words of LED i. -/
theorem blockWrites_lt {mark : Word} {i n : Nat} {r g b : Byte} (hi : i < n) {p : Nat × Word}
    (hp : p ∈ blockWrites mark i r g b) : p.1 < n * 24 := by
  obtain ⟨-, hhi, -⟩ := mem_consecutive hp
  rw [length_blockWords] at hhi
  omega

theorem exec_encrgb_of_lt {s : State} {m : Memory} {i : BitVec 16} (r g b : Byte) (h : s.state.configured = true)
    (hfb : s.fb = some m) (hi : i.toNat < s.ledCount.toNat) (hlen : s.fbLen.toNat = s.ledCount.toNat * 24) :
    exec (.encrgb i r g b) s = .next { s with
      fb := some (writeWords (wordStride s.cfg) m (blockWrites s.mark i.toNat r g b)), result := .none } := by
  have hact := blockCommand_of_lt i (memWriteAll (blockWrites s.mark i.toNat r g b)) h hi
  refine hact.trans (memWriteAll_eq (s := returning .none s) hfb ?_)
  intro p hp
  rw [returning_fbLen, hlen]
  exact blockWrites_lt hi hp

/-- Settles O12: the words are the block's, at consecutive indices from 24 i, and nothing outside is written. -/
theorem encrgbWritesBlock : Obligations.EncrgbWritesBlock := by
  intro s m i r g b hs hc hfb hi hlen hmark
  refine ⟨_, exec_encrgb_of_lt r g b (configured_of_running_or_stopped hs) hfb hi hlen, ?_, ?_⟩
  · intro k hk
    have hfit : ∀ w ∈ blockWords s.mark r g b, w.toNat < 2 ^ s.cfg.wordBits :=
      fun w hw => toNat_lt_of_canonical hmark (eq_zero_or_mark_of_mem_blockWords hw)
    obtain ⟨hgreen, hred, hblue⟩ := getElem?_blockWords s.mark r g b hk
    refine ⟨readWord_writeWords hc m hfit hgreen, ?_, ?_⟩
    · have hindex : wordIndex i.toNat 1 k = 24 * i.toNat + (8 + (7 - k)) := by unfold wordIndex; omega
      rw [hindex]
      exact readWord_writeWords hc m hfit hred
    · have hindex : wordIndex i.toNat 2 k = 24 * i.toNat + (16 + (7 - k)) := by unfold wordIndex; omega
      rw [hindex]
      exact readWord_writeWords hc m hfit hblue
  · intro a ha
    exact readByte_writeWords_outside (wordStride_eq_one_or_two hc) m _ ha

/-- Settles O18: the test of the LED, and the test of the lifecycle state before it. -/
theorem encrgbOutOfRangeRaises : Obligations.EncrgbOutOfRangeRaises := by
  constructor
  · intro s i r g b hs hi
    exact blockCommand_of_le i _ (configured_of_running_or_stopped hs) hi
  · intro s i r g b hs
    exact blockCommand_of_not_configured i _ (not_configured_of_uninit_or_halted hs)

/-! ### FBWR (R190) -/

theorem exec_fbwr_of_not_configured (i : BitVec 16) (w : Word) {s : State} (h : s.state.configured = false) :
    exec (.fbwr i w) s = .refused .notConfigured :=
  if_pos (by simp [h])

theorem exec_fbwr_of_le {i : BitVec 16} (w : Word) {s : State} (h : s.state.configured = true)
    (hi : s.fbLen.toNat ≤ i.toNat) : exec (.fbwr i w) s = .next (breached (.fbIndexOutOfRange i.toNat) s) :=
  (if_neg (by simp [h])).trans (if_pos hi)

theorem exec_fbwr_of_malformed {i : BitVec 16} {w : Word} {s : State} (h : s.state.configured = true)
    (hi : i.toNat < s.fbLen.toNat) (h0 : w ≠ 0) (hm : w ≠ s.mark) :
    exec (.fbwr i w) s = .next (breached (.malformedWrite i.toNat w) s) :=
  (if_neg (by simp [h])).trans ((if_neg (by omega)).trans (if_pos ⟨h0, hm⟩))

theorem exec_fbwr_of_canonical {i : BitVec 16} {w : Word} {s : State} (h : s.state.configured = true)
    (hi : i.toNat < s.fbLen.toNat) (hw : w = 0 ∨ w = s.mark) :
    exec (.fbwr i w) s = memWrite i.toNat w (returning .none s) := by
  have hbad : ¬(w ≠ zeroWord ∧ w ≠ s.mark) := fun ⟨h0, hm⟩ => hw.elim h0 hm
  exact (if_neg (by simp [h])).trans ((if_neg (by omega)).trans (if_neg hbad))

/-- Settles O15: the write of one word. -/
theorem fbwrWritesWord : Obligations.FbwrWritesWord := by
  intro s m i w hs hc hfb hi hw hfit
  have hexec := exec_fbwr_of_canonical (configured_of_running_or_stopped hs) hi hw
  exact ⟨_, hexec.trans (memWrite_of_lt (s := returning .none s) w hfb hi), readWord_writeWord_same hc m i.toNat hfit,
    fun a ha => readByte_writeWord_outside (wordStride_eq_one_or_two hc) m w ha⟩

/-- Settles O16: the index, then the word, and the lifecycle state before both. -/
theorem fbwrBreachesRaise : Obligations.FbwrBreachesRaise :=
  ⟨fun _ _ w hs hi => exec_fbwr_of_le w (configured_of_running_or_stopped hs) hi,
    fun _ _ _ hs hi h0 hm => exec_fbwr_of_malformed (configured_of_running_or_stopped hs) hi h0 hm,
    fun _ i w hs => exec_fbwr_of_not_configured i w (not_configured_of_uninit_or_halted hs)⟩

/-! ### FBRD (R191) -/

theorem exec_fbrd_of_not_configured (i : BitVec 16) {s : State} (h : s.state.configured = false) :
    exec (.fbrd i) s = .refused .notConfigured :=
  if_pos (by simp [h])

theorem exec_fbrd_of_le {i : BitVec 16} {s : State} (h : s.state.configured = true) (hi : s.fbLen.toNat ≤ i.toNat) :
    exec (.fbrd i) s = .next (breached (.fbIndexOutOfRange i.toNat) s) :=
  (if_neg (by simp [h])).trans (if_pos hi)

theorem exec_fbrd_of_read {i : BitVec 16} {w : Word} {s : State} (h : s.state.configured = true)
    (hread : memRead s i.toNat = some w) : exec (.fbrd i) s = .next (returning (.word w) s) := by
  obtain ⟨m, -, hi, -⟩ := memRead_eq_some.mp hread
  have hlt : ¬ s.fbLen.toNat ≤ i.toNat := by omega
  simp only [exec, execFbrd, h, Bool.not_true, Bool.false_eq_true, if_false, if_neg hlt, hread]

/-- Settles O17: the word read, the index out of range, the lifecycle state. -/
theorem fbrdReadsWord : Obligations.FbrdReadsWord :=
  ⟨fun _ _ _ hs hfb hi => exec_fbrd_of_read (configured_of_running_or_stopped hs) (memRead_of_lt hfb hi),
    fun _ _ hs hi => exec_fbrd_of_le (configured_of_running_or_stopped hs) hi,
    fun _ i hs => exec_fbrd_of_not_configured i (not_configured_of_uninit_or_halted hs)⟩

end Sys2Proof.Machine
end

section
/-! The lifecycle operations (`42_lifecycle.md`): the branches of INIT in the order of its tests, STOP and START. The statements
O35 to O39. -/

namespace Sys2Proof.Machine

/-! ### The tests of INIT (R170, R171, R172, R179) -/

theorem initAdmitted_iff (s : State) :
    initAdmitted s = true ↔ s.state = .uninit ∨ (s.state = .stopped ∧ s.cfg.allowReinit = true) := by
  simp [initAdmitted]

theorem goodPinMask_iff (n : Nat) (mask : Word) : goodPinMask n mask = true ↔ mask ≠ 0 ∧ mask.toNat < 2 ^ n := by
  simp [goodPinMask, fitsWord]

theorem allocAnswer_of_capacity_lt {words : Nat} {s : State} (h : s.cfg.fbCapacity < words) :
    allocAnswer words s = false := by
  have hcap : ¬ words ≤ s.cfg.fbCapacity := by omega
  simp [allocAnswer, hcap]

theorem le_capacity_of_allocAnswer {words : Nat} {s : State} (h : allocAnswer words s = true) :
    words ≤ s.cfg.fbCapacity := by
  by_contra hlt
  rw [allocAnswer_of_capacity_lt (by omega)] at h
  exact Bool.false_ne_true h

theorem wordsWanted_eq (c : Config) (n : Nat) : wordsWanted c n = n * 24 + c.slackWords := rfl

section Init
variable {s : State} {n : BitVec 32} {port : PortId} {mask : Word}

theorem exec_init_of_bad_cfg (hc : s.cfg.wf = false) : exec (.init n port mask) s = .refused .badConfiguration :=
  if_pos (by simp [hc])

theorem exec_init_of_not_admitted (hc : s.cfg.wf = true) (ha : ¬ initAdmitted s = true) :
    exec (.init n port mask) s = .refused .initNotAdmitted :=
  (if_neg (by simp [hc])).trans (if_pos (by simpa using ha))

theorem exec_init_of_bad_mask (hc : s.cfg.wf = true) (ha : initAdmitted s = true)
    (hm : ¬ goodPinMask s.cfg.wordBits mask = true) : exec (.init n port mask) s = .refused .badPinMask :=
  (if_neg (by simp [hc])).trans ((if_neg (by simp [ha])).trans (if_pos (by simpa using hm)))

/-- Where the parameters, the lifecycle state and the mask allow it, INIT looks at the geometry and then at the allocator. -/
theorem exec_init_of_admitted (hc : s.cfg.wf = true) (ha : initAdmitted s = true)
    (hm : goodPinMask s.cfg.wordBits mask = true) :
    exec (.init n port mask) s =
      if n.toInt ≤ 0 then .next (breached (.invalidGeometry n) s)
      else if allocAnswer (wordsWanted s.cfg n.toNat) s = true then
        .next (returning (.handle (freshHandle s))
          (startPlayback (configure n.toNat port mask (freshHandle s) (afterDraw s))))
      else .next (breached (.allocFail (wordsWanted s.cfg n.toNat)) (afterDraw s)) := by
  cases halloc : allocAnswer (wordsWanted s.cfg n.toNat) s <;> simp [exec, execInit, hc, ha, hm, halloc]

end Init

/-! ### What INIT answers -/

theorem ofNat_frameLength (n : BitVec 32) : BitVec.ofNat 16 (frameLength n.toNat) = n.setWidth 16 * 24 := by
  apply BitVec.eq_of_toNat_eq
  simp [frameLength]

/-- The registers of a successful INIT whose mask fits a timing word. -/
theorem configure_eq {s : State} {mask : Word} (n : BitVec 32) (port : PortId) (h : Handle)
    (hfit : mask.toNat < 2 ^ s.cfg.wordBits) :
    configure n.toNat port mask h s = { s with
      ledCount := n.setWidth 16, fbLen := n.setWidth 16 * 24, fbBase := h, fb := some [], portSel := port, pinMask := mask,
      setW := mask.setWidth 32, clrW := mask.setWidth 32 <<< 16, mark := mask } := by
  rw [configure, BitVec.ofNat_toNat, ofNat_frameLength, markOf_eq hfit]
  rfl

/-- Settles O35: every test passes, and the start sequence follows the configuration. -/
theorem initBringsUpBlock : Obligations.InitBringsUpBlock := by
  intro s n port mask hc hs hmask hfit hn _ halloc
  have hexec := exec_init_of_admitted (n := n) (port := port) hc ((initAdmitted_iff s).mpr hs)
    ((goodPinMask_iff _ _).mpr ⟨hmask, hfit⟩)
  rw [if_neg (by omega), wordsWanted_eq, if_pos halloc, configure_eq (s := afterDraw s) n port _ hfit] at hexec
  exact ⟨freshHandle s, [], hexec, rfl, readByte_nil⟩

/-- Settles O36: the geometry's test, then the allocator's. -/
theorem initFatalErrorsHalt : Obligations.InitFatalErrorsHalt := by
  intro s n port mask hc hs hmask hfit
  have hexec := exec_init_of_admitted (n := n) (port := port) hc ((initAdmitted_iff s).mpr hs)
    ((goodPinMask_iff _ _).mpr ⟨hmask, hfit⟩)
  constructor
  · intro hn
    exact hexec.trans (if_pos hn)
  · intro hn hno
    have halloc : allocAnswer (n.toNat * 24 + s.cfg.slackWords) s = false := hno.elim allocAnswer_of_capacity_lt id
    rw [if_neg (by omega), wordsWanted_eq, if_neg (by simp [halloc])] at hexec
    exact hexec

/-- Settles O37: the lifecycle state, then the mask. -/
theorem initRefusals : Obligations.InitRefusals := by
  intro s n port mask hc
  constructor
  · intro hs
    exact exec_init_of_not_admitted hc (by rw [initAdmitted_iff]; grind)
  · intro hs hbad
    exact exec_init_of_bad_mask hc ((initAdmitted_iff s).mpr hs) (by rw [goodPinMask_iff]; grind)

/-! ### STOP and START (R178, R180) -/

/-- Settles O38: the two branches of its one test. -/
theorem stopStopsPlayback : Obligations.StopStopsPlayback :=
  fun _ => ⟨fun h => if_pos h, fun h => if_neg h⟩

/-- Settles O39: the two branches of its one test, the start sequence being R176 field by field. -/
theorem startRestartsPlayback : Obligations.StartRestartsPlayback :=
  fun _ => ⟨fun h => if_pos h, fun h => if_neg h⟩

end Sys2Proof.Machine
end

section
/-! What an instruction can do, said once: `Effect` lists the next states, and `exec_effect` says that these are all. From it the
two frame statements O27 and O28, and the frames of the configuration, of FAULT and of STATE that the step's rules need. -/

namespace Sys2Proof.Machine

/-! ### Which instructions are HOST operations -/

theorem format_of_decodeOp {f : OpForm} {i : Instr} (h : decodeOp f = .ok i) : i.format = .OP := by
  unfold decodeOp at h
  split_ifs at h <;> cases h <;> rfl

/-- A HOST operation is decoded by its selector, so the selector is the one the encoder gives it. -/
theorem selector_of_decodeOp {f g : OpForm} {i : Instr} (h : decodeOp f = .ok i) (he : encode i = .op g) : f.op = g.op := by
  unfold decodeOp at h
  split_ifs at h with hop hop hop hop hop hop hop <;> cases h <;> cases he <;> exact hop

/-! ### The effects -/

/-- Everything instruction `i` can leave of the state `s`. -/
inductive Effect (s : State) : Instr → State → Prop
  /-- A timing word or an event in turn writes the port (R142, R144, R145, R147). -/
  | event {i : Instr} (v : PortWord) (hi : i.format ≠ .OP) : Effect s i (portWrite v s)
  /-- SEQ.EARLY also advances POS (R143). -/
  | played (v : PortWord) : Effect s .seqEarly (advancePos (portWrite v s))
  /-- A malformed word at the fetch (R216 c). -/
  | malformed {i : Instr} (k : Nat) (w : Word) (hi : i.format ≠ .OP) : Effect s i (takeFault (.malformedFetch k w) s)
  /-- A result answered and canonical words written, of a configured block. -/
  | access {i : Instr} {t : State} (ws : List (Nat × Word)) (r : Result) (hc : s.state.configured = true)
      (hws : ∀ p ∈ ws, Canonical s p.2) (h : memWriteAll ws (returning r s) = .next t) : Effect s i t
  /-- A breach of the HOST (R216 d). -/
  | breach {i : Instr} (r : Raise) (hc : s.state.configured = true) (hr : r.halts = false) : Effect s i (breached r s)
  | stopped (h : s.state = .running) :
      Effect s .stop (returning .none { s with en := false, armE := false, armL := false, state := .stopped })
  | started (h : s.state = .stopped) : Effect s .start (returning .none (startPlayback s))
  /-- A fatal error of INIT, before or after the allocator was asked (R216 b). -/
  | initFailed {u : State} (n : BitVec 32) (port : PortId) (mask : Word) (r : Raise) (ha : initAdmitted s = true)
      (hr : r.halts = true ∧ r.endsPlayback = false) (hu : u = s ∨ u = afterDraw s) :
      Effect s (.init n port mask) (breached r u)
  | initialised (n : BitVec 32) (port : PortId) (mask : Word) (hcfg : s.cfg.wf = true) (ha : initAdmitted s = true)
      (hm : goodPinMask s.cfg.wordBits mask = true) (hn : 0 < n.toInt)
      (halloc : allocAnswer (wordsWanted s.cfg n.toNat) s = true) :
      Effect s (.init n port mask) (returning (.handle (freshHandle s))
        (startPlayback (configure n.toNat port mask (freshHandle s) (afterDraw s))))

theorem access_frame {ws : List (Nat × Word)} {r : Result} {s t : State} (h : memWriteAll ws (returning r s) = .next t) :
    t = { s with fb := t.fb, result := r } :=
  memWriteAll_frame h

theorem effect_t0 {m : Word} {s t : State} (h : exec (.t0 m) s = .next t) : Effect s (.t0 m) t := by
  by_cases hturn : earlyTurn s = true
  · by_cases hm : m = 0 ∨ m ≠ s.mark
    · rw [exec_t0_of_not_mark hturn hm] at h
      cases h
      exact .malformed _ m nofun
    · obtain ⟨h0, hmark⟩ := not_or.mp hm
      obtain rfl : m = s.mark := not_not.mp hmark
      rw [exec_t0_of_mark hturn h0] at h
      cases h
      exact .event _ nofun
  · rw [exec_t0_of_not_earlyTurn m hturn] at h
    cases h

theorem effect_seqEarly {s t : State} (h : exec .seqEarly s = .next t) : Effect s .seqEarly t := by
  obtain ⟨w, -, ⟨-, rfl⟩ | ⟨-, -, rfl⟩⟩ := seqEarly_next h
  · exact .played _
  · exact .malformed _ w nofun

/-- The tests that ENCRGB shares whether it is run whole or begun. -/
theorem blockCommand_next {i : BitVec 16} {act : State → Answer} {s t : State} (h : blockCommand i act s = .next t) :
    s.state.configured = true ∧ (t = breached (.fbIndexOutOfRange (24 * i.toNat)) s ∨
      i.toNat < s.ledCount.toNat ∧ act (returning .none s) = .next t) := by
  cases hc : s.state.configured with
  | false => rw [blockCommand_of_not_configured i act hc] at h; cases h
  | true =>
    refine ⟨rfl, ?_⟩
    rcases Nat.lt_or_ge i.toNat s.ledCount.toNat with hi | hi
    · rw [blockCommand_of_lt i act hc hi] at h
      exact .inr ⟨hi, h⟩
    · rw [blockCommand_of_le i act hc hi] at h
      cases h
      exact .inl rfl

theorem canonical_of_mem_blockWrites {s : State} {i : Nat} {r g b : Byte} {p : Nat × Word}
    (hp : p ∈ blockWrites s.mark i r g b) : Canonical s p.2 :=
  eq_zero_or_mark_of_mem_blockWords (mem_consecutive hp).2.2

theorem effect_encrgb {i : BitVec 16} {r g b : Byte} {s t : State} (h : exec (.encrgb i r g b) s = .next t) :
    Effect s (.encrgb i r g b) t := by
  obtain ⟨hc, rfl | ⟨-, hact⟩⟩ := blockCommand_next h
  · exact .breach _ hc rfl
  · exact .access _ _ hc (fun p => canonical_of_mem_blockWrites) hact

theorem effect_fbwr {i : BitVec 16} {w : Word} {s t : State} (h : exec (.fbwr i w) s = .next t) :
    Effect s (.fbwr i w) t := by
  cases hc : s.state.configured with
  | false => rw [exec_fbwr_of_not_configured i w hc] at h; cases h
  | true =>
    rcases Nat.lt_or_ge i.toNat s.fbLen.toNat with hi | hi
    · by_cases hw : w = 0 ∨ w = s.mark
      · rw [exec_fbwr_of_canonical hc hi hw] at h
        refine .access [(i.toNat, w)] .none hc (List.forall_mem_singleton.mpr hw) ?_
        rw [memWriteAll, h]
        rfl
      · obtain ⟨h0, hm⟩ := not_or.mp hw
        rw [exec_fbwr_of_malformed hc hi h0 hm] at h
        cases h
        exact .breach _ hc rfl
    · rw [exec_fbwr_of_le w hc hi] at h
      cases h
      exact .breach _ hc rfl

theorem effect_fbrd {i : BitVec 16} {s t : State} (h : exec (.fbrd i) s = .next t) : Effect s (.fbrd i) t := by
  cases hc : s.state.configured with
  | false => rw [exec_fbrd_of_not_configured i hc] at h; cases h
  | true =>
    rcases Nat.lt_or_ge i.toNat s.fbLen.toNat with hi | hi
    · cases hread : memRead s i.toNat with
      | none =>
        have hlt : ¬ s.fbLen.toNat ≤ i.toNat := by omega
        simp [exec, execFbrd, hc, hlt, hread] at h
      | some w =>
        rw [exec_fbrd_of_read hc hread] at h
        exact .access [] (.word w) hc nofun h
    · rw [exec_fbrd_of_le hc hi] at h
      cases h
      exact .breach _ hc rfl

theorem effect_init {n : BitVec 32} {port : PortId} {mask : Word} {s t : State} (h : exec (.init n port mask) s = .next t) :
    Effect s (.init n port mask) t := by
  cases hcfg : s.cfg.wf with
  | false => rw [exec_init_of_bad_cfg hcfg] at h; cases h
  | true =>
    by_cases ha : initAdmitted s = true
    · by_cases hm : goodPinMask s.cfg.wordBits mask = true
      · rw [exec_init_of_admitted hcfg ha hm] at h
        split_ifs at h with hn halloc <;> cases h
        · exact .initFailed n port mask _ ha ⟨rfl, rfl⟩ (.inl rfl)
        · exact .initialised n port mask hcfg ha hm (by omega) halloc
        · exact .initFailed n port mask _ ha ⟨rfl, rfl⟩ (.inr rfl)
      · rw [exec_init_of_bad_mask hcfg ha hm] at h
        cases h
    · rw [exec_init_of_not_admitted hcfg ha] at h
      cases h

/-- Everything an instruction can do where it answers a next state. -/
theorem exec_effect {i : Instr} {s t : State} (h : exec i s = .next t) : Effect s i t := by
  cases i with
  | t1 =>
    by_cases hturn : earlyTurn s = true
    · rw [exec_t1_of_earlyTurn hturn] at h
      cases h
      exact .event 0 nofun
    · rw [exec_t1_of_not_earlyTurn hturn] at h
      cases h
  | t0 m => exact effect_t0 h
  | sym q =>
    cases hc : s.state.configured with
    | false => rw [exec_sym_of_not_configured q hc] at h; cases h
    | true =>
      rw [exec_sym_of_configured q hc] at h
      exact .access [] _ hc nofun h
  | init n port mask => exact effect_init h
  | stop =>
    by_cases hs : s.state = .running
    · rw [(stopStopsPlayback s).1 hs] at h
      cases h
      exact .stopped hs
    · rw [(stopStopsPlayback s).2 hs] at h
      cases h
  | start =>
    by_cases hs : s.state = .stopped
    · rw [(startRestartsPlayback s).1 hs] at h
      cases h
      exact .started hs
    · rw [(startRestartsPlayback s).2 hs] at h
      cases h
  | enc8 v =>
    cases hc : s.state.configured with
    | false => rw [exec_enc8_of_not_configured v hc] at h; cases h
    | true =>
      rw [exec_enc8_of_configured v hc] at h
      exact .access [] _ hc nofun h
  | encrgb i r g b => exact effect_encrgb h
  | fbwr i w => exact effect_fbwr h
  | fbrd i => exact effect_fbrd h
  | seqSet =>
    by_cases hturn : setTurn s = true
    · rw [exec_seqSet_of_setTurn hturn] at h
      cases h
      exact .event _ nofun
    · rw [exec_seqSet_of_not_setTurn hturn] at h
      cases h
  | seqEarly => exact effect_seqEarly h
  | seqLate =>
    by_cases hturn : lateTurn s = true
    · rw [exec_seqLate_of_lateTurn hturn] at h
      cases h
      exact .event _ nofun
    · rw [exec_seqLate_of_not_lateTurn hturn] at h
      cases h

/-! ### Frames of the instructions -/

/-- Settles O27: of the effects only the three excluded ones write POS. -/
theorem onlyThreeInstructionsWritePos : Obligations.OnlyThreeInstructionsWritePos := by
  intro i s t h hinit hstart hearly
  cases exec_effect h with
  | event v hi => rfl
  | played v => exact absurd rfl hearly
  | malformed k w hi => rfl
  | access ws r hc hws hwrites => rw [access_frame hwrites]
  | breach r hc hr => rfl
  | stopped hs => rfl
  | started hs => exact absurd rfl hstart
  | initFailed n port mask r ha hr hu => exact absurd rfl (hinit n port mask)
  | initialised n port mask hcfg ha hm hn halloc => exact absurd rfl (hinit n port mask)

/-- Settles O28: only the effects of events write a latch, and no HOST operation is an event. -/
theorem hostOperationsLeavePins : Obligations.HostOperationsLeavePins := by
  intro f i s t hdec h
  have hop : i.format = .OP := format_of_decodeOp hdec
  cases exec_effect h with
  | event v hi => exact absurd hop hi
  | played v => cases hop
  | malformed k w hi => exact absurd hop hi
  | access ws r hc hws hwrites => rw [access_frame hwrites]
  | breach r hc hr => rfl
  | stopped hs => rfl
  | started hs => rfl
  | initFailed n port mask r ha hr hu => rcases hu with rfl | rfl <;> rfl
  | initialised n port mask hcfg ha hm hn halloc => rfl

/-- The configuration registers (`10_state.md` R23 to R28) and the parameters (`00_scope.md` R6). -/
structure ConfigRegs where
  ledCount : BitVec 16
  portSel : PortId
  pinMask : Word
  setW : PortWord
  clrW : PortWord
  mark : Word
  fbBase : Handle
  fbLen : BitVec 16
  cfg : Config

/-- The configuration registers of a state. -/
def configRegs (s : State) : ConfigRegs where
  ledCount := s.ledCount
  portSel := s.portSel
  pinMask := s.pinMask
  setW := s.setW
  clrW := s.clrW
  mark := s.mark
  fbBase := s.fbBase
  fbLen := s.fbLen
  cfg := s.cfg

theorem configRegs_eq_iff {s t : State} : configRegs t = configRegs s ↔
    t.ledCount = s.ledCount ∧ t.portSel = s.portSel ∧ t.pinMask = s.pinMask ∧ t.setW = s.setW ∧ t.clrW = s.clrW ∧
      t.mark = s.mark ∧ t.fbBase = s.fbBase ∧ t.fbLen = s.fbLen ∧ t.cfg = s.cfg := by
  simp [configRegs]

@[simp] theorem configRegs_advanceCounters (s : State) : configRegs (advanceCounters s) = configRegs s := by
  simp [configRegs]

theorem configRegs_of_memWriteAll {ws : List (Nat × Word)} {s t : State} (h : memWriteAll ws s = .next t) :
    configRegs t = configRegs s := by
  rw [memWriteAll_frame h]
  rfl

theorem exec_cfg {i : Instr} {s t : State} (h : exec i s = .next t) : t.cfg = s.cfg := by
  cases exec_effect h with
  | event v hi => rfl
  | played v => rfl
  | malformed k w hi => rfl
  | access ws r hc hws hwrites => rw [access_frame hwrites]
  | breach r hc hr => rfl
  | stopped hs => rfl
  | started hs => rfl
  | initFailed n port mask r ha hr hu => rcases hu with rfl | rfl <;> rfl
  | initialised n port mask hcfg ha hm hn halloc => rfl

/-- No instruction but INIT writes a configuration register (R23). -/
theorem exec_configRegs {i : Instr} {s t : State} (h : exec i s = .next t) (hinit : ∀ n port mask, i ≠ .init n port mask) :
    configRegs t = configRegs s := by
  cases exec_effect h with
  | event v hi => rfl
  | played v => rfl
  | malformed k w hi => rfl
  | access ws r hc hws hwrites => exact (configRegs_of_memWriteAll hwrites).trans rfl
  | breach r hc hr => rfl
  | stopped hs => rfl
  | started hs => rfl
  | initFailed n port mask r ha hr hu => exact absurd rfl (hinit n port mask)
  | initialised n port mask hcfg ha hm hn halloc => exact absurd rfl (hinit n port mask)

theorem takeFault_keeps_fault (r : Raise) {s : State} (h : s.fault ≠ 0) : (takeFault r s).fault = s.fault :=
  stickyFault_keeps h

/-- No instruction changes a FAULT that is not zero (R22, R216 a). -/
theorem exec_keeps_fault {i : Instr} {s t : State} (h : exec i s = .next t) (hf : s.fault ≠ 0) : t.fault = s.fault := by
  cases exec_effect h with
  | event v hi => rfl
  | played v => rfl
  | malformed k w hi => exact takeFault_keeps_fault _ hf
  | access ws r hc hws hwrites => rw [access_frame hwrites]
  | breach r hc hr => exact takeFault_keeps_fault r hf
  | stopped hs => rfl
  | started hs => rfl
  | initFailed n port mask r ha hr hu => rcases hu with rfl | rfl <;> exact takeFault_keeps_fault r hf
  | initialised n port mask hcfg ha hm hn halloc => rfl

/-- No instruction but START and INIT makes the block run (R170). -/
theorem exec_starts_running {i : Instr} {s t : State} (h : exec i s = .next t) (hs : s.state ≠ .running)
    (ht : t.state = .running) : i = .start ∨ ∃ n port mask, i = .init n port mask := by
  cases exec_effect h with
  | event v hi => exact absurd ht hs
  | played v => exact absurd ht hs
  | malformed k w hi => cases ht
  | access ws r hc hws hwrites =>
    rw [access_frame hwrites] at ht
    exact absurd ht hs
  | breach r hc hr =>
    have hkeep : (breached r s).state = s.state := if_neg (by simp [hr])
    exact absurd (hkeep.symm.trans ht) hs
  | stopped hrun => cases ht
  | started hs => exact .inl rfl
  | initFailed n port mask r ha hr hu => exact .inr ⟨n, port, mask, rfl⟩
  | initialised n port mask hcfg ha hm hn halloc => exact .inr ⟨n, port, mask, rfl⟩

end Sys2Proof.Machine
end

section
/-! What a step can be, said once: `Move` lists the answers of whoever moves next, and `step_move` says that these are all. The
statements about a single step O46 and O48, and the single-word writes of ENCRGB, O13. -/

namespace Sys2Proof.Machine

/-! ### The kinds of step (log entries 8, 9) -/

/-- The HOST's operation `f` stands at the head of the schedule, whole or to be begun. -/
def HostNext (f : OpForm) (rest : List Input) (s : State) : Prop := s.inbox = .op f :: rest ∨ s.inbox = .split f :: rest

/-- Every answer a step of `s` can be. -/
inductive Move (s : State) : Answer → Prop
  | tick (rest : List Input) (hrest : rest <:+ s.inbox) : Move s (tick { s with inbox := rest })
  | write (rest : List Input) (hrest : rest <:+ s.inbox) : Move s (drainWrite { s with inbox := rest })
  | pins (port : PortId) (v : Word) (rest : List Input) (hin : s.inbox = .pins port v :: rest) :
      Move s (.next (othersWrite port v { s with inbox := rest }))
  | undecodable (f : OpForm) (rest : List Input) (e : DecodeError) (hin : HostNext f rest s) :
      Move s (.refused (.undecodable e))
  | op (f : OpForm) (i : Instr) (rest : List Input) (hin : HostNext f rest s) (hp : s.pendingWrites = [])
      (hdec : decodeOp f = .ok i) : Move s (exec i { s with inbox := rest })
  | begun (f : OpForm) (i : BitVec 16) (r g b : Byte) (rest : List Input) (hin : HostNext f rest s)
      (hp : s.pendingWrites = []) : Move s (beginEncrgb i r g b { s with inbox := rest })

theorem issue_of_decodeOp {f : OpForm} {i : Instr} (h : decodeOp f = .ok i) (s : State) : issue f s = exec i s := by
  simp [issue, h]

/-- With nothing scheduled and no write pending, the clock ticks. -/
theorem step_empty {s : State} (h : s.inbox = []) (hp : s.pendingWrites = []) : step s = tick s := by
  simp [step, moveNext, h, hp]

/-- An operation begun either waits with its writes (ENCRGB) or is executed as a whole. -/
theorem issueSplit_cases {f : OpForm} {i : Instr} (h : decodeOp f = .ok i) (s : State) :
    (∃ k r g b, issueSplit f s = beginEncrgb k r g b s) ∨ issueSplit f s = exec i s := by
  cases i with
  | encrgb k r g b => exact .inl ⟨k, r, g, b, by simp [issueSplit, h]⟩
  | _ => exact .inr (by simp [issueSplit, h])

theorem move_of_op {s : State} {f : OpForm} {rest : List Input} (h : s.inbox = .op f :: rest) (hp : s.pendingWrites = []) :
    Move s (step s) := by
  rw [step_op h hp]
  cases hdec : decodeOp f with
  | error e =>
    rw [issue_of_decodeOp_error hdec]
    exact .undecodable f rest e (.inl h)
  | ok i =>
    rw [issue_of_decodeOp hdec]
    exact .op f i rest (.inl h) hp hdec

theorem move_of_split {s : State} {f : OpForm} {rest : List Input} (h : s.inbox = .split f :: rest)
    (hp : s.pendingWrites = []) : Move s (step s) := by
  rw [step_split h hp]
  cases hdec : decodeOp f with
  | error e =>
    rw [issueSplit_of_decodeOp_error hdec]
    exact .undecodable f rest e (.inr h)
  | ok i =>
    rcases issueSplit_cases hdec { s with inbox := rest } with ⟨k, r, g, b, heq⟩ | heq
    · rw [heq]
      exact .begun f k r g b rest (.inr h) hp
    · rw [heq]
      exact .op f i rest (.inr h) hp hdec

/-- Every step is one of these moves. -/
theorem step_move (s : State) : Move s (step s) := by
  have hself : s.inbox <:+ s.inbox := List.suffix_refl _
  have hdrain : Move s (drainWrite s) := .write s.inbox hself
  cases h : s.inbox with
  | nil =>
    by_cases hp : s.pendingWrites = []
    · rw [step_empty h hp]
      exact .tick s.inbox hself
    · rw [step_empty_pending h hp]
      exact hdrain
  | cons x rest =>
    have htail : rest <:+ s.inbox := h ▸ List.suffix_cons x rest
    cases x with
    | tick =>
      rw [step_tick h]
      exact .tick rest htail
    | write =>
      rw [step_write h]
      exact .write rest htail
    | pins port v =>
      rw [step_pins h]
      exact .pins port v rest h
    | op f =>
      by_cases hp : s.pendingWrites = []
      · exact move_of_op h hp
      · rw [step_busy (.inl h) hp]
        exact hdrain
    | split f =>
      by_cases hp : s.pendingWrites = []
      · exact move_of_split h hp
      · rw [step_busy (.inr h) hp]
        exact hdrain

/-- The same, told of an answer in hand: the move is taken apart, and the equation says what it answered. -/
theorem exists_move_of_step {s : State} {a : Answer} (h : step s = a) : ∃ r, Move s r ∧ r = a := ⟨step s, step_move s, h⟩

/-- Settles O46: the rules of the schedule's inputs, and the fetch. -/
theorem stepRunsDecodedInstruction : Obligations.StepRunsDecodedInstruction := by
  refine ⟨?_, fun s rest h => step_tick h, fun s h hp => step_empty h hp, ?_⟩
  · intro s f i rest h hp hdec
    rw [step_op h hp]
    exact issue_of_decodeOp hdec _
  · intro s w i hrun hen harm hcnt hread hdec
    exact exec_seqEarly_of_decode ((earlyTurn_iff s).mpr ⟨hrun, hen, harm, hcnt⟩) hread hdec

/-! ### Outside writes (`10_state.md` R34) -/

theorem getLsbD_drivenPins (s : State) (port : PortId) (p : Nat) :
    (drivenPins s port).getLsbD p = decide (s.state = .running ∧ port = s.portSel ∧ s.pinMask.getLsbD p = true) := by
  unfold drivenPins
  split_ifs with h
  · simp [h]
  · have hno : ¬(s.state = .running ∧ port = s.portSel ∧ s.pinMask.getLsbD p = true) := fun ⟨hs, hport, _⟩ => h ⟨hs, hport⟩
    simp [hno]

theorem latch_othersWrite (port other : PortId) (v : Word) (s : State) :
    latch (othersWrite port v s) other =
      if other = port then (latch s port &&& drivenPins s port) ||| (v &&& ~~~(drivenPins s port)) else latch s other :=
  sparseGet_set _ _ _ _

/-- An outside write takes a pin from the old latch where the block drives it, else from the value written. -/
theorem getLsbD_latch_othersWrite (port : PortId) (v : Word) (s : State) {p : Nat} (hp : p < 16) :
    (latch (othersWrite port v s) port).getLsbD p =
      if s.state = .running ∧ port = s.portSel ∧ s.pinMask.getLsbD p = true then (latch s port).getLsbD p
      else v.getLsbD p := by
  rw [latch_othersWrite, if_pos rfl, BitVec.getLsbD_or, BitVec.getLsbD_and, BitVec.getLsbD_and, BitVec.getLsbD_not,
    getLsbD_drivenPins]
  split_ifs with hd
  · rw [decide_eq_true hd]
    simp
  · rw [decide_eq_false hd]
    simp [hp]

/-- Settles O48: pin by pin on the port written, and nothing on another. -/
theorem outsideWritesSpareDrivenPins : Obligations.OutsideWritesSpareDrivenPins := by
  intro s port v rest h
  refine ⟨_, step_pins h, ?_, ?_⟩
  · intro p hp
    exact getLsbD_latch_othersWrite port v { s with inbox := rest } hp
  · intro other hother
    exact (latch_othersWrite port other v { s with inbox := rest }).trans (if_neg hother)

/-! ### ENCRGB as single-word writes (`40_encoder.md` R124) -/

theorem drainWrite_idle {s : State} (h : s.pendingWrites = []) : drainWrite s = .next s := by
  simp [drainWrite, h]

theorem drainWrite_pending {s : State} {p : Nat × Word} {ws : List (Nat × Word)} (h : s.pendingWrites = p :: ws) :
    drainWrite s = memWrite p.1 p.2 { s with pendingWrites := ws } := by
  simp [drainWrite, h]

/-- With no write owed, `write` inputs are only taken. -/
theorem steps_write_idle {s : State} {n : Nat} {rest : List Input} (hp : s.pendingWrites = [])
    (h : s.inbox = List.replicate n .write ++ rest) : steps n s = .next { s with inbox := rest } := by
  induction n generalizing s with
  | zero => rw [steps, ← show s.inbox = rest from h]
  | succ n ih =>
    have hstep : step s = .next { s with inbox := List.replicate n .write ++ rest } :=
      (step_write h).trans (drainWrite_idle hp)
    rw [steps, hstep, andThen_next]
    exact ih hp rfl

/-- One `write` input for each write owed makes all of them, in order, or stops at the first word that does not exist. -/
theorem steps_write_pending {s : State} {ws : List (Nat × Word)} {rest : List Input} (hp : s.pendingWrites = ws)
    (h : s.inbox = List.replicate ws.length .write ++ rest) :
    steps ws.length s = memWriteAll ws { s with inbox := rest, pendingWrites := [] } := by
  induction ws generalizing s with
  | nil =>
    rw [List.length_nil, steps_write_idle (n := 0) hp h, memWriteAll, ← hp]
  | cons p ws ih =>
    have hstep : step s =
        memWrite p.1 p.2 { s with inbox := List.replicate ws.length .write ++ rest, pendingWrites := ws } :=
      (step_write h).trans (drainWrite_pending hp)
    rw [List.length_cons, steps, hstep, memWriteAll]
    obtain hfb | ⟨m, hfb⟩ := Option.eq_none_or_eq_some s.fb
    · simp [memWrite, hfb]
    · by_cases hi : p.1 < s.fbLen.toNat
      · rw [memWrite_of_lt p.2 (by exact hfb) (by exact hi), memWrite_of_lt p.2 (by exact hfb) (by exact hi), andThen_next,
          andThen_next]
        exact ih rfl rfl
      · simp [memWrite, hfb, hi]

theorem issueSplit_encrgb (i : BitVec 16) (r g b : Byte) (s : State) :
    issueSplit { op := 0x5, i := i, r := r, g := g, b := b } s = beginEncrgb i r g b s := rfl

/-- Settles O13: the tests are made once, at the beginning; after them the writes owed are those of the whole operation. -/
theorem splitEncrgbEqualsWhole : Obligations.SplitEncrgbEqualsWhole := by
  intro s i r g b rest hp h
  rw [steps, step_split h hp, issueSplit_encrgb]
  show andThen (blockCommand i _ _) _ = blockCommand i _ _
  cases hc : s.state.configured with
  | false =>
    rw [blockCommand_of_not_configured i _ (by exact hc), blockCommand_of_not_configured i _ (by exact hc),
      andThen_refused]
  | true =>
    rcases Nat.lt_or_ge i.toNat s.ledCount.toNat with hi | hi
    · rw [blockCommand_of_lt i _ (by exact hc) (by exact hi), blockCommand_of_lt i _ (by exact hc) (by exact hi),
        andThen_next]
      refine (steps_write_pending (ws := blockWrites s.mark i.toNat r g b) (rest := rest) rfl rfl).trans ?_
      rw [← hp]
      rfl
    · rw [blockCommand_of_le i _ (by exact hc) (by exact hi), blockCommand_of_le i _ (by exact hc) (by exact hi),
        andThen_next]
      exact steps_write_idle hp rfl

end Sys2Proof.Machine
end

section
/-! The invariant and the updates of the state: which fields `Inv` reads, and what keeps it through a changed buffer, read
position, phase or fault. The statements O49 and O50, about the state after reset. -/

namespace Sys2Proof.Machine

/-! ### After reset (`10_state.md` R36) -/

/-- Settles O49: each operation's test of the lifecycle state, evaluated at reset. -/
theorem resetWaitsForInit : Obligations.ResetWaitsForInit :=
  ⟨rfl, rfl, rfl, rfl, rfl, rfl, rfl, rfl, rfl, rfl, fun _ => rfl, fun _ _ _ _ => rfl, fun _ _ => rfl, fun _ => rfl⟩

/-- Settles O50: nothing is configured and nothing is pending. -/
theorem invariantHoldsAtReset : Obligations.InvariantHoldsAtReset where
  latches := rfl
  memory := nofun
  faultCode := Nat.zero_le 4
  enables := ⟨rfl, rfl, rfl⟩
  halted := nofun
  uninit _ := ⟨rfl, rfl⟩
  configured := nofun
  pendingGood := nofun
  pendingConfigured h := absurd rfl h

/-! ### The buffer (`20_memory.md` R63, R73) -/

/-- A good buffer is judged by the configuration registers alone. -/
theorem GoodBuffer.congr {s t : State} {m : Memory} (g : GoodBuffer s m) (h : configRegs t = configRegs s) :
    GoodBuffer t m := by
  obtain ⟨-, -, -, -, -, hmark, -, hlen, hcfg⟩ := configRegs_eq_iff.mp h
  have hcanonical := g.canonical
  have hslack := g.slack
  unfold Canonical at hcanonical
  rw [← hmark, ← hlen, ← hcfg] at hcanonical
  rw [← hlen, ← hcfg] at hslack
  exact ⟨g.wf, hcanonical, hslack⟩

/-- A canonical word written below FBLEN leaves a good buffer. -/
theorem GoodBuffer.writeWord {s : State} {m : Memory} {i : Nat} {w : Word} (g : GoodBuffer s m) (hc : s.cfg.wf = true)
    (hmark : s.mark.toNat < 2 ^ s.cfg.wordBits) (hi : i < s.fbLen.toNat) (hw : Canonical s w) :
    GoodBuffer s (m.writeWord (wordStride s.cfg) i w) where
  wf := writeWord_wf _ i w g.wf
  canonical j hj := by
    by_cases hji : j = i
    · rw [hji, readWord_writeWord_same hc m i (toNat_lt_of_canonical hmark hw)]
      exact hw
    · rw [readWord_writeWord_other (wordStride_eq_one_or_two hc) m w hji]
      exact g.canonical j hj
  slack a ha := by
    have hs := wordStride_eq_one_or_two hc
    rw [readByte_writeWord_outside hs m w (.inr ((wordAddress_mono hs hi).trans ha))]
    exact g.slack a ha

/-- The zeroed buffer of INIT is good (R172). -/
theorem goodBuffer_nil (s : State) : GoodBuffer s [] where
  wf := rfl
  canonical i _ := .inl (readWord_nil _ i)
  slack a _ := readByte_nil a

/-! ### The configured block -/

/-- The counters are in their range and in phase (`41_sequencer.md` R140, R158). -/
def InPhase (s : State) : Prop :=
  s.cntC < s.cfg.p ∧ s.cntE = (s.cntC + phaseE s.cfg) % s.cfg.p ∧ s.cntL = (s.cntC + phaseL s.cfg) % s.cfg.p

theorem Configured.inPhase {s : State} (c : Configured s) : InPhase s := ⟨c.cntC, c.cntE, c.cntL⟩

theorem Configured.markFits {s : State} (c : Configured s) : s.mark.toNat < 2 ^ s.cfg.wordBits := by
  rw [c.mark]
  exact c.maskFits

/-- With the configuration registers kept, a block stays configured where its read position, buffer and phase are good. -/
theorem Configured.of_configRegs {s t : State} (c : Configured s) (h : configRegs t = configRegs s)
    (hpos : t.pos.toNat < t.fbLen.toNat) (hbuffer : ∃ m, t.fb = some m ∧ GoodBuffer s m) (hphase : InPhase t) :
    Configured t := by
  obtain ⟨m, hfb, hgood⟩ := hbuffer
  obtain ⟨hC, hE, hL⟩ := hphase
  obtain ⟨hcount, -, hmask, hset, hclr, hmark, -, hlen, hcfg⟩ := configRegs_eq_iff.mp h
  constructor
  case pos => exact hpos
  case buffer => exact ⟨m, hfb, hgood.congr h⟩
  case cntC => exact hC
  case cntE => exact hE
  case cntL => exact hL
  case cfgWf => rw [hcfg]; exact c.cfgWf
  case maskNonzero => rw [hmask]; exact c.maskNonzero
  case maskFits => rw [hmask, hcfg]; exact c.maskFits
  case setW => rw [hset, hmask]; exact c.setW
  case clrW => rw [hclr, hmask]; exact c.clrW
  case mark => rw [hmark, hmask]; exact c.mark
  case ledCountPos => rw [hcount]; exact c.ledCountPos
  case fbLen => rw [hlen, hcount]; exact c.fbLen
  case capacity => rw [hlen, hcfg]; exact c.capacity

/-- What `Configured` reads of a state. -/
def playback (s : State) : ConfigRegs × BitVec 16 × Option Memory × Nat × Nat × Nat :=
  (configRegs s, s.pos, s.fb, s.cntC, s.cntE, s.cntL)

theorem playback_eq_iff {s t : State} : playback t = playback s ↔ configRegs t = configRegs s ∧ t.pos = s.pos ∧
    t.fb = s.fb ∧ t.cntC = s.cntC ∧ t.cntE = s.cntE ∧ t.cntL = s.cntL := by
  simp [playback]

theorem Configured.congr {s t : State} (c : Configured s) (h : playback t = playback s) : Configured t := by
  obtain ⟨hregs, hpos, hfb, hC, hE, hL⟩ := playback_eq_iff.mp h
  obtain ⟨-, -, -, -, -, -, -, hlen, hcfg⟩ := configRegs_eq_iff.mp hregs
  refine c.of_configRegs hregs ?_ ?_ ?_
  · rw [hpos, hlen]
    exact c.pos
  · rw [hfb]
    exact c.buffer
  · rw [InPhase, hC, hE, hL, hcfg]
    exact c.inPhase

theorem toNat_advancePos_lt {s : State} (h : s.pos.toNat < s.fbLen.toNat) :
    (advancePos s).pos.toNat < s.fbLen.toNat := by
  rw [toNat_advancePos h]
  exact Nat.mod_lt _ (by omega)

theorem Configured.advancePos {s : State} (c : Configured s) : Configured (advancePos s) :=
  c.of_configRegs rfl (toNat_advancePos_lt c.pos) c.buffer c.inPhase

theorem Configured.writeWord {s : State} {m : Memory} {i : Nat} {w : Word} (c : Configured s) (hfb : s.fb = some m)
    (hi : i < s.fbLen.toNat) (hw : Canonical s w) :
    Configured { s with fb := some (m.writeWord (wordStride s.cfg) i w) } := by
  obtain ⟨m', hm', hgood⟩ := c.buffer
  obtain rfl : m' = m := Option.some.inj (hm'.symm.trans hfb)
  exact c.of_configRegs rfl c.pos ⟨_, rfl, hgood.writeWord c.cfgWf c.markFits hi hw⟩ c.inPhase

/-- Counting on modulo P keeps a counter's distance from the cadence counter. -/
theorem phase_succ (c d p : Nat) : ((c + d) % p + 1) % p = ((c + 1) % p + d) % p := by
  rw [Nat.mod_add_mod, Nat.mod_add_mod, Nat.add_right_comm]

theorem Configured.advanceCounters {s : State} (c : Configured s) (hC : s.en = true) (hE : s.armE = true)
    (hL : s.armL = true) : Configured (advanceCounters s) := by
  refine c.of_configRegs (configRegs_advanceCounters s) ?_ ?_ ?_
  · rw [advanceCounters_pos, advanceCounters_fbLen]
    exact c.pos
  · rw [advanceCounters_fb]
    exact c.buffer
  · obtain ⟨hcntC, hcntE, hcntL⟩ := advanceCounters_of_running s hC hE hL
    obtain ⟨hlt, hphaseE, hphaseL⟩ := c.inPhase
    rw [InPhase, advanceCounters_cfg, hcntC, hcntE, hcntL, hphaseE, hphaseL]
    exact ⟨Nat.mod_lt _ (by omega), phase_succ _ _ _, phase_succ _ _ _⟩

/-- The order of the offsets in a bit period (`41_sequencer.md` R150). -/
theorem offsets_of_wf {c : Config} (h : c.wf = true) : 0 < c.e ∧ c.e < c.l ∧ c.l < c.p := by
  simp only [Config.wf, Bool.and_eq_true, decide_eq_true_eq] at h
  omega

/-- The start sequence's pre-loads are in phase (`42_lifecycle.md` R176). -/
theorem inPhase_startPlayback {s : State} (h : s.cfg.wf = true) : InPhase (startPlayback s) := by
  obtain ⟨he, hel, hlp⟩ := offsets_of_wf h
  have hE : phaseE s.cfg < s.cfg.p := by unfold phaseE; omega
  have hL : phaseL s.cfg < s.cfg.p := by unfold phaseL; omega
  refine ⟨?_, ?_, ?_⟩
  · show 0 < s.cfg.p
    omega
  · show phaseE s.cfg = (0 + phaseE s.cfg) % s.cfg.p
    rw [Nat.zero_add, Nat.mod_eq_of_lt hE]
  · show phaseL s.cfg = (0 + phaseL s.cfg) % s.cfg.p
    rw [Nat.zero_add, Nat.mod_eq_of_lt hL]

theorem Configured.startPlayback {s : State} (c : Configured s) : Configured (startPlayback s) :=
  c.of_configRegs rfl (Nat.zero_lt_of_lt c.pos) c.buffer (inPhase_startPlayback c.cfgWf)

/-- A successful INIT configures the block (R171, R173, R174): the capacity keeps LEDCOUNT and FBLEN within 16 bits. -/
theorem configured_of_init {s : State} {n : BitVec 32} {mask : Word} (port : PortId) (h : Handle) (hcfg : s.cfg.wf = true)
    (hm : goodPinMask s.cfg.wordBits mask = true) (hn : 0 < n.toInt)
    (hcap : wordsWanted s.cfg n.toNat ≤ s.cfg.fbCapacity) :
    Configured (startPlayback (configure n.toNat port mask h s)) := by
  obtain ⟨hmask, hfit⟩ := (goodPinMask_iff _ _).mp hm
  have hpos : 0 < n.toNat := by
    rw [BitVec.toInt_eq_toNat_cond] at hn
    split_ifs at hn <;> omega
  have hcap16 : s.cfg.fbCapacity < 2 ^ 16 := by
    simp only [Config.wf, Bool.and_eq_true, decide_eq_true_eq] at hcfg
    exact hcfg.2
  rw [wordsWanted_eq] at hcap
  have hcount : (BitVec.ofNat 16 n.toNat).toNat = n.toNat := Nat.mod_eq_of_lt (by omega)
  have hlen : (BitVec.ofNat 16 (frameLength n.toNat)).toNat = n.toNat * 24 := Nat.mod_eq_of_lt (by unfold frameLength; omega)
  obtain ⟨hC, hE, hL⟩ := inPhase_startPlayback (s := configure n.toNat port mask h s) hcfg
  constructor
  case cfgWf => exact hcfg
  case maskNonzero => exact hmask
  case maskFits => exact hfit
  case setW => exact setWordOf_eq mask
  case clrW => exact clearWordOf_eq mask
  case mark => exact markOf_eq hfit
  case ledCountPos => exact hcount.symm ▸ hpos
  case fbLen => exact hlen.trans (congrArg (· * 24) hcount.symm)
  case capacity => exact hlen.symm ▸ hcap
  case pos => exact hlen.symm ▸ Nat.mul_pos hpos (by decide)
  case buffer => exact ⟨[], rfl, goodBuffer_nil _⟩
  case cntC => exact hC
  case cntE => exact hE
  case cntL => exact hL

/-! ### The invariant -/

/-- EN, ARM_E, ARM_L are 1 exactly in RUNNING (R31). -/
def EnablesOf (s : State) : Prop :=
  s.en = decide (s.state = .running) ∧ s.armE = decide (s.state = .running) ∧ s.armL = decide (s.state = .running)

/-- The writes owed are canonical and inside the buffer. -/
def PendingGood (s : State) : Prop := ∀ p ∈ s.pendingWrites, p.1 < s.fbLen.toNat ∧ Canonical s p.2

/-- In RUNNING and STOPPED the invariant is these six facts. -/
theorem inv_of_configured {s : State} (hconf : s.state.configured = true) (hout : sparseWf s.out = true)
    (hfault : s.fault.toNat ≤ 4) (hen : EnablesOf s) (c : Configured s) (hpend : PendingGood s) : Inv s where
  latches := hout
  memory m hm := by
    obtain ⟨m', hm', hgood⟩ := c.buffer
    obtain rfl : m' = m := Option.some.inj (hm'.symm.trans hm)
    exact hgood.wf
  faultCode := hfault
  enables := hen
  halted h := by rw [h] at hconf; cases hconf
  uninit h := by rw [h] at hconf; cases hconf
  configured _ := c
  pendingGood := hpend
  pendingConfigured _ := hconf

/-- What `Inv` reads of a state besides `playback` and the latches. -/
def control (s : State) : Lifecycle × BitVec 3 × Bool × Bool × Bool × List (Nat × Word) :=
  (s.state, s.fault, s.en, s.armE, s.armL, s.pendingWrites)

theorem control_eq_iff {s t : State} : control t = control s ↔ t.state = s.state ∧ t.fault = s.fault ∧ t.en = s.en ∧
    t.armE = s.armE ∧ t.armL = s.armL ∧ t.pendingWrites = s.pendingWrites := by
  simp [control]

theorem PendingGood.congr {s t : State} (h : PendingGood s) (hregs : configRegs t = configRegs s)
    (hpend : t.pendingWrites = s.pendingWrites) : PendingGood t := by
  obtain ⟨-, -, -, -, -, hmark, -, hlen, -⟩ := configRegs_eq_iff.mp hregs
  unfold PendingGood Canonical
  rw [hpend, hlen, hmark]
  exact h

/-- An update that keeps control and registers of a configured block keeps the invariant where the block stays configured. -/
theorem Inv.of_control {s t : State} (h : Inv s) (hconf : s.state.configured = true) (hctl : control t = control s)
    (hregs : configRegs t = configRegs s) (hout : sparseWf t.out = true) (c : Configured t) : Inv t := by
  obtain ⟨hstate, hfault, hen, harmE, harmL, hpend⟩ := control_eq_iff.mp hctl
  refine inv_of_configured ?_ hout ?_ ?_ c (PendingGood.congr h.pendingGood hregs hpend)
  · rw [hstate]
    exact hconf
  · rw [hfault]
    exact h.faultCode
  · rw [EnablesOf, hen, harmE, harmL, hstate]
    exact h.enables

/-- In every lifecycle state, an update of latches, observations and schedule alone keeps the invariant. -/
theorem Inv.congr {s t : State} (h : Inv s) (hctl : control t = control s) (hplay : playback t = playback s)
    (hout : sparseWf t.out = true) : Inv t := by
  obtain ⟨hregs, hpos, hfb, hC, hE, hL⟩ := playback_eq_iff.mp hplay
  cases hconf : s.state.configured with
  | true => exact h.of_control hconf hctl hregs hout ((h.configured hconf).congr hplay)
  | false =>
    obtain ⟨hstate, hfault, hen, harmE, harmL, hpend⟩ := control_eq_iff.mp hctl
    have hnone : s.pendingWrites = [] := by
      by_contra hp
      exact Bool.false_ne_true (hconf.symm.trans (h.pendingConfigured hp))
    constructor
    case latches => exact hout
    case memory => rw [hfb]; exact h.memory
    case faultCode => rw [hfault]; exact h.faultCode
    case enables => rw [hen, harmE, harmL, hstate]; exact h.enables
    case halted => rw [hstate, hfault]; exact h.halted
    case uninit => rw [hstate, hfb, hfault]; exact h.uninit
    case configured => rw [hstate, hconf]; exact nofun
    case pendingGood => rw [hpend, hnone]; exact nofun
    case pendingConfigured => rw [hpend, hnone]; exact fun hne => absurd rfl hne

theorem Inv.inbox {s : State} (h : Inv s) (rest : List Input) : Inv { s with inbox := rest } := h.congr rfl rfl h.latches

theorem Inv.portWrite {s : State} (h : Inv s) (v : PortWord) : Inv (portWrite v s) :=
  h.congr rfl rfl (sparseWf_set _ _ h.latches)

theorem Inv.othersWrite {s : State} (h : Inv s) (port : PortId) (v : Word) : Inv (othersWrite port v s) :=
  h.congr rfl rfl (sparseWf_set _ _ h.latches)

theorem Inv.returning {s : State} (h : Inv s) (r : Result) : Inv (returning r s) := h.congr rfl rfl h.latches

end Sys2Proof.Machine
end

section
/-! The tick of a running block under the invariant (`41_sequencer.md` R158, R215): `TickEvent` says what its one event can be,
`KeepsPlaying` what it leaves. The statements O29, O47, O52 and O53. -/

namespace Sys2Proof.Machine

/-! ### Phase and turn -/

/-- A counter pre-loaded with P - d reads zero when the cadence counter reads d. -/
theorem phase_eq_zero_iff {c d p : Nat} (hc : c < p) (hd : 0 < d) (hdp : d < p) : (c + (p - d)) % p = 0 ↔ c = d := by
  rcases Nat.lt_or_ge c d with h | h
  · rw [Nat.mod_eq_of_lt (by omega)]
    omega
  · have hwrap : c + (p - d) = (c - d) + p := by omega
    rw [hwrap, Nat.add_mod_right, Nat.mod_eq_of_lt (by omega)]
    omega

theorem Configured.cntE_eq_zero_iff {s : State} (c : Configured s) : s.cntE = 0 ↔ s.cntC = s.cfg.e := by
  obtain ⟨he, hel, hlp⟩ := offsets_of_wf c.cfgWf
  rw [c.cntE]
  exact phase_eq_zero_iff c.cntC he (by omega)

theorem Configured.cntL_eq_zero_iff {s : State} (c : Configured s) : s.cntL = 0 ↔ s.cntC = s.cfg.l := by
  obtain ⟨he, hel, hlp⟩ := offsets_of_wf c.cfgWf
  rw [c.cntL]
  exact phase_eq_zero_iff c.cntC (by omega) hlp

/-- A running block, taken apart: it is configured and its three sources are on (R31). -/
theorem Inv.of_running {s : State} (h : Inv s) (hrun : s.state = .running) :
    Configured s ∧ s.en = true ∧ s.armE = true ∧ s.armL = true := by
  obtain ⟨hen, harmE, harmL⟩ := h.enables
  rw [hrun] at hen harmE harmL
  exact ⟨h.configured (by rw [hrun]; rfl), hen, harmE, harmL⟩

/-- The word at POS exists and is canonical (`20_memory.md` R73 a). -/
theorem Configured.fetch {s : State} (c : Configured s) :
    ∃ w, memRead s s.pos.toNat = some w ∧ (w = 0 ∨ w = s.mark) := by
  obtain ⟨m, hfb, hgood⟩ := c.buffer
  exact ⟨_, memRead_of_lt hfb c.pos, hgood.canonical _ c.pos⟩

/-! ### The event of a tick (R158, R215) -/

/-- What the one event of a tick leaves, before the counters move. -/
inductive TickEvent (s : State) : State → Prop
  | set (hC : s.cntC = 0) (hexec : exec .seqSet s = .next (portWrite s.setW s)) : TickEvent s (portWrite s.setW s)
  | early (w : Word) (hE : s.cntC = s.cfg.e) (hread : memRead s s.pos.toNat = some w) (hw : w = 0 ∨ w = s.mark)
      (hexec : exec .seqEarly s = .next (advancePos (portWrite (w ++ 0#16) s))) :
      TickEvent s (advancePos (portWrite (w ++ 0#16) s))
  | late (hL : s.cntC = s.cfg.l) (hexec : exec .seqLate s = .next (portWrite s.clrW s)) : TickEvent s (portWrite s.clrW s)
  | idle (hC : s.cntC ≠ 0) (hE : s.cntC ≠ s.cfg.e) (hL : s.cntC ≠ s.cfg.l) : TickEvent s s

theorem tick_of_set {s t : State} (hen : s.en = true) (hC : s.cntC = 0) (hexec : exec .seqSet s = .next t)
    (hE : t.cntE ≠ 0) (hL : t.cntL ≠ 0) : tick s = .next (advanceCounters t) := by
  have hset : execSeqSet s = .next t := hexec
  simp [tick, eventIf, hen, hC, hset, hE, hL]

theorem tick_of_early {s t : State} (hen : s.en = true) (harmE : s.armE = true) (hC : s.cntC ≠ 0) (hE : s.cntE = 0)
    (hexec : exec .seqEarly s = .next t) (hL : t.cntL ≠ 0) : tick s = .next (advanceCounters t) := by
  have hearly : execSeqEarly s = .next t := hexec
  simp [tick, eventIf, hen, harmE, hC, hE, hearly, hL]

theorem tick_of_late {s t : State} (hen : s.en = true) (harmL : s.armL = true) (hC : s.cntC ≠ 0) (hE : s.cntE ≠ 0)
    (hL : s.cntL = 0) (hexec : exec .seqLate s = .next t) : tick s = .next (advanceCounters t) := by
  have hlate : execSeqLate s = .next t := hexec
  simp [tick, eventIf, hen, harmL, hC, hE, hL, hlate]

theorem tick_of_idle {s : State} (hen : s.en = true) (hC : s.cntC ≠ 0) (hE : s.cntE ≠ 0) (hL : s.cntL ≠ 0) :
    tick s = .next (advanceCounters s) := by
  simp [tick, eventIf, hen, hC, hE, hL]

theorem tick_of_not_en {s : State} (h : s.en = false) : tick s = .next s := by
  simp [tick, h]

/-- Outside RUNNING a tick changes nothing (`42_lifecycle.md` R170). -/
theorem Inv.tick_of_not_running {s : State} (h : Inv s) (hrun : s.state ≠ .running) : tick s = .next s := by
  obtain ⟨hen, -, -⟩ := h.enables
  exact tick_of_not_en (by rw [hen, decide_eq_false hrun])

/-- A tick of a running block is one event, or none, and then the counters move: 0 < E < L < P keeps the turns apart. -/
theorem Inv.tick_of_running {s : State} (h : Inv s) (hrun : s.state = .running) :
    ∃ u, TickEvent s u ∧ tick s = .next (advanceCounters u) := by
  obtain ⟨c, hen, harmE, harmL⟩ := h.of_running hrun
  obtain ⟨he, hel, hlp⟩ := offsets_of_wf c.cfgWf
  by_cases hC : s.cntC = 0
  · have hexec := exec_seqSet_of_setTurn ((setTurn_iff s).mpr ⟨hrun, hen, hC⟩)
    have hE : s.cntE ≠ 0 := by rw [Ne, c.cntE_eq_zero_iff]; omega
    have hL : s.cntL ≠ 0 := by rw [Ne, c.cntL_eq_zero_iff]; omega
    exact ⟨_, .set hC hexec, tick_of_set hen hC hexec hE hL⟩
  by_cases hE : s.cntC = s.cfg.e
  · have hturn : s.cntE = 0 := c.cntE_eq_zero_iff.mpr hE
    have hL : s.cntL ≠ 0 := by rw [Ne, c.cntL_eq_zero_iff]; omega
    obtain ⟨w, hread, hw⟩ := c.fetch
    have hexec := exec_seqEarly_of_canonical ((earlyTurn_iff s).mpr ⟨hrun, hen, harmE, hturn⟩) hread hw
    exact ⟨_, .early w hE hread hw hexec, tick_of_early hen harmE hC hturn hexec hL⟩
  have hE' : s.cntE ≠ 0 := by rwa [Ne, c.cntE_eq_zero_iff]
  by_cases hL : s.cntC = s.cfg.l
  · have hturn : s.cntL = 0 := c.cntL_eq_zero_iff.mpr hL
    have hexec := exec_seqLate_of_lateTurn ((lateTurn_iff s).mpr ⟨hrun, hen, harmL, hturn⟩)
    exact ⟨_, .late hL hexec, tick_of_late hen harmL hC hE' hturn hexec⟩
  · have hL' : s.cntL ≠ 0 := by rwa [Ne, c.cntL_eq_zero_iff]
    exact ⟨_, .idle hC hE hL, tick_of_idle hen hC hE' hL'⟩

/-! ### What a tick of a running block leaves -/

/-- The block goes on running, good, with FAULT, FB, the configuration and the HOST's part of the state as before. -/
structure KeepsPlaying (s t : State) : Prop where
  inv : Inv t
  running : t.state = .running
  fault : t.fault = s.fault
  fb : t.fb = s.fb
  configRegs : configRegs t = configRegs s
  inbox : t.inbox = s.inbox
  pendingWrites : t.pendingWrites = s.pendingWrites

theorem KeepsPlaying.refl {s : State} (h : Inv s) (hrun : s.state = .running) : KeepsPlaying s s :=
  ⟨h, hrun, rfl, rfl, rfl, rfl, rfl⟩

theorem KeepsPlaying.trans {s t u : State} (h : KeepsPlaying s t) (h' : KeepsPlaying t u) : KeepsPlaying s u :=
  ⟨h'.inv, h'.running, h'.fault.trans h.fault, h'.fb.trans h.fb, h'.configRegs.trans h.configRegs,
    h'.inbox.trans h.inbox, h'.pendingWrites.trans h.pendingWrites⟩

theorem keepsPlaying_portWrite {s : State} (h : Inv s) (hrun : s.state = .running) (v : PortWord) :
    KeepsPlaying s (portWrite v s) :=
  ⟨h.portWrite v, hrun, rfl, rfl, rfl, rfl, rfl⟩

theorem keepsPlaying_advancePos {s : State} (h : Inv s) (hrun : s.state = .running) : KeepsPlaying s (advancePos s) := by
  obtain ⟨c, -⟩ := h.of_running hrun
  exact ⟨h.of_control (by rw [hrun]; rfl) rfl rfl h.latches c.advancePos, hrun, rfl, rfl, rfl, rfl, rfl⟩

theorem keepsPlaying_advanceCounters {s : State} (h : Inv s) (hrun : s.state = .running) :
    KeepsPlaying s (advanceCounters s) := by
  obtain ⟨c, hen, harmE, harmL⟩ := h.of_running hrun
  have hinv : Inv (advanceCounters s) := by
    refine h.of_control (by rw [hrun]; rfl) (by simp [control]) (configRegs_advanceCounters s) ?_
      (c.advanceCounters hen harmE harmL)
    rw [advanceCounters_out]
    exact h.latches
  constructor
  case inv => exact hinv
  case configRegs => exact configRegs_advanceCounters s
  all_goals simp [hrun]

theorem TickEvent.keepsPlaying {s u : State} (ev : TickEvent s u) (h : Inv s) (hrun : s.state = .running) :
    KeepsPlaying s u := by
  cases ev with
  | set hC hexec => exact keepsPlaying_portWrite h hrun _
  | early w hE hread hw hexec =>
    have hwrite := keepsPlaying_portWrite h hrun (w ++ 0#16)
    exact hwrite.trans (keepsPlaying_advancePos hwrite.inv hwrite.running)
  | late hL hexec => exact keepsPlaying_portWrite h hrun _
  | idle hC hE hL => exact .refl h hrun

/-- No event writes a counter. -/
theorem TickEvent.cntC {s u : State} (ev : TickEvent s u) : u.cntC = s.cntC := by
  cases ev <;> rfl

/-- The counters of a running block all move (R158). -/
theorem KeepsPlaying.advanceCounters_eq {s u : State} (h : KeepsPlaying s u) :
    advanceCounters u = { u with
      cntC := (u.cntC + 1) % u.cfg.p, cntE := (u.cntE + 1) % u.cfg.p, cntL := (u.cntL + 1) % u.cfg.p } := by
  obtain ⟨-, hen, harmE, harmL⟩ := h.inv.of_running h.running
  simp [advanceCounters, hen, harmE, harmL]

/-- A tick of a good running block always completes and the block goes on playing. -/
theorem Inv.tick_keepsPlaying {s : State} (h : Inv s) (hrun : s.state = .running) :
    ∃ t, tick s = .next t ∧ KeepsPlaying s t ∧ t.cntC = (s.cntC + 1) % s.cfg.p := by
  obtain ⟨u, ev, htick⟩ := h.tick_of_running hrun
  have hkeep := ev.keepsPlaying h hrun
  obtain ⟨-, -, -, -, -, -, -, -, hcfg⟩ := configRegs_eq_iff.mp hkeep.configRegs
  refine ⟨_, htick, hkeep.trans (keepsPlaying_advanceCounters hkeep.inv hkeep.running), ?_⟩
  rw [hkeep.advanceCounters_eq, ← ev.cntC, ← hcfg]

theorem Inv.keepsPlaying_of_tick {s t : State} (h : Inv s) (hrun : s.state = .running) (ht : tick s = .next t) :
    KeepsPlaying s t := by
  obtain ⟨t', ht', hkeep, -⟩ := h.tick_keepsPlaying hrun
  cases ht'.symm.trans ht
  exact hkeep

/-- Settles O47: the event whose offset the cadence counter reads, and then the counters. -/
theorem tickRunsOneEvent : Obligations.TickRunsOneEvent := by
  intro s h hrun moved
  obtain ⟨c, -⟩ := h.of_running hrun
  obtain ⟨he, hel, hlp⟩ := offsets_of_wf c.cfgWf
  obtain ⟨u, ev, htick⟩ := h.tick_of_running hrun
  rw [(ev.keepsPlaying h hrun).advanceCounters_eq] at htick
  rw [c.cntE_eq_zero_iff, c.cntL_eq_zero_iff, Ne, Ne, Ne, c.cntE_eq_zero_iff, c.cntL_eq_zero_iff]
  cases ev with
  | set hC hexec =>
    exact ⟨fun _ => ⟨_, hexec, htick⟩, fun hE => by omega, fun hL => by omega, fun hC' => absurd hC hC'⟩
  | early w hE hread hw hexec =>
    exact ⟨fun hC => by omega, fun _ => ⟨_, hexec, htick⟩, fun hL => by omega, fun _ hE' => absurd hE hE'⟩
  | late hL hexec =>
    exact ⟨fun hC => by omega, fun hE => by omega, fun _ => ⟨_, hexec, htick⟩, fun _ _ hL' => absurd hL hL'⟩
  | idle hC hE hL =>
    exact ⟨fun hC' => absurd hC' hC, fun hE' => absurd hE' hE, fun hL' => absurd hL' hL, fun _ _ _ => htick⟩

/-! ### The pins (R151, R154) -/

/-- A tick's event leaves a latch alone, or raises or lowers exactly the masked pins of the selected port. -/
theorem TickEvent.latch_cases {s u : State} (ev : TickEvent s u) (c : Configured s) (port : PortId) :
    latch u port = latch s port ∨ (port = s.portSel ∧
      (latch u port = latch s port ||| s.pinMask ∨ latch u port = latch s port &&& ~~~s.pinMask)) := by
  by_cases hport : port = s.portSel
  · subst hport
    cases ev with
    | set hC hexec =>
      rw [latch_portWrite_sel, c.setW, portEffect_set]
      exact .inr ⟨rfl, .inl rfl⟩
    | early w hE hread hw hexec =>
      have hlatch : latch (advancePos (portWrite (w ++ 0#16) s)) s.portSel = latch s s.portSel &&& ~~~w :=
        (latch_portWrite_sel _ s).trans (portEffect_clear w _)
      rcases hw with rfl | rfl
      · exact .inl (latch_portWrite_zero s _)
      · rw [hlatch, c.mark]
        exact .inr ⟨rfl, .inr rfl⟩
    | late hL hexec =>
      rw [latch_portWrite_sel, c.clrW, portEffect_clear]
      exact .inr ⟨rfl, .inr rfl⟩
    | idle hC hE hL => exact .inl rfl
  · cases ev with
    | set hC hexec => exact .inl (latch_portWrite_other _ s hport)
    | early w hE hread hw hexec => exact .inl (latch_portWrite_other _ s hport)
    | late hL hexec => exact .inl (latch_portWrite_other _ s hport)
    | idle hC hE hL => exact .inl rfl

theorem latch_advanceCounters (s : State) (port : PortId) : latch (advanceCounters s) port = latch s port := by
  rw [latch, advanceCounters_out, latch]

/-- Settles O29: a pin outside the mask is neither raised nor lowered. -/
theorem unmaskedPinsNeverChange : Obligations.UnmaskedPinsNeverChange := by
  intro s t h htick port p hp
  by_cases hrun : s.state = .running
  · obtain ⟨u, ev, htick'⟩ := h.tick_of_running hrun
    cases htick'.symm.trans htick
    obtain ⟨c, -⟩ := h.of_running hrun
    rw [latch_advanceCounters]
    rcases ev.latch_cases c port with hsame | ⟨hport, hmasked⟩
    · rw [hsame]
    · have hbit : s.pinMask.getLsbD p = false := hp.resolve_left (absurd hport)
      rcases hmasked with hhigh | hlow
      · rw [hhigh, BitVec.getLsbD_or, hbit, Bool.or_false]
      · rw [hlow, BitVec.getLsbD_and, BitVec.getLsbD_not, hbit]
        by_cases hlt : p < 16
        · simp [hlt]
        · simp [BitVec.getLsbD_of_ge _ p (by omega : 16 ≤ p)]
  · cases (h.tick_of_not_running hrun).symm.trans htick
    rfl

/-! ### The fetch (`20_memory.md` R73, R75) -/

/-- Settles O52: the word at POS of a good buffer, played in turn. -/
theorem fetchIsAlwaysCanonical : Obligations.FetchIsAlwaysCanonical := by
  intro s h hrun hcnt
  obtain ⟨c, hen, harmE, -⟩ := h.of_running hrun
  obtain ⟨w, hread, hw⟩ := c.fetch
  have hexec := exec_seqEarly_of_canonical ((earlyTurn_iff s).mpr ⟨hrun, hen, harmE, hcnt⟩) hread hw
  exact ⟨w, _, hread, c.mark ▸ hw, hexec, rfl, hrun⟩

/-- Settles O53: the written word is read back at the fetch. -/
theorem fetchSeesLatestWrite : Obligations.FetchSeesLatestWrite := by
  intro s w h hrun hcnt hw
  obtain ⟨c, hen, harmE, -⟩ := h.of_running hrun
  obtain ⟨m, hfb, -⟩ := c.buffer
  have hwrite := exec_fbwr_of_canonical (by rw [hrun]; rfl) c.pos hw
  rw [memWrite_of_lt (s := returning .none s) w hfb c.pos] at hwrite
  have hread := readWord_writeWord_same c.cfgWf m s.pos.toNat (toNat_lt_of_canonical c.markFits hw)
  refine ⟨_, _, hwrite, exec_seqEarly_of_canonical ?_ (memRead_eq_some.mpr ⟨_, rfl, c.pos, hread.symm⟩) hw, rfl⟩
  exact (earlyTurn_iff _).mpr ⟨hrun, hen, harmE, hcnt⟩

end Sys2Proof.Machine
end

section
/-! Every step keeps the invariant (O51), move by move: the tick, the HOST's single-word write, the outside write, and a HOST
operation by its effect. With it the step's safety, O56. -/

namespace Sys2Proof.Machine

/-! ### Single-word writes -/

theorem Inv.memWrite {s t : State} {i : Nat} {w : Word} (h : Inv s) (hconf : s.state.configured = true)
    (hw : Canonical s w) (ht : memWrite i w s = .next t) : Inv t := by
  rcases memWrite_cases i w s with ⟨m, hfb, hi, hnext⟩ | ⟨-, hfault⟩
  · cases hnext.symm.trans ht
    exact h.of_control hconf rfl rfl h.latches ((h.configured hconf).writeWord hfb hi hw)
  · cases hfault.symm.trans ht

theorem Inv.memWriteAll {s t : State} {ws : List (Nat × Word)} (h : Inv s) (hconf : s.state.configured = true)
    (hws : ∀ p ∈ ws, Canonical s p.2) (ht : memWriteAll ws s = .next t) : Inv t := by
  induction ws generalizing s with
  | nil => cases ht; exact h
  | cons p ws ih =>
    obtain ⟨u, hu, hrest⟩ := next_of_andThen ht
    have hinv := h.memWrite hconf (hws p List.mem_cons_self) hu
    have hframe : u = { s with fb := u.fb } := memWriteAll_frame (ws := [p]) (by rw [Machine.memWriteAll, hu]; rfl)
    rw [hframe] at hinv hrest
    exact ih hinv hconf (fun q hq => hws q (List.mem_cons_of_mem p hq)) hrest

/-- A single-word write changes FB and the writes owed only. -/
theorem drainWrite_frame {s t : State} (h : drainWrite s = .next t) :
    t = { s with fb := t.fb, pendingWrites := t.pendingWrites } := by
  cases hp : s.pendingWrites with
  | nil =>
    cases (drainWrite_idle hp).symm.trans h
    rfl
  | cons p ws =>
    rw [drainWrite_pending hp] at h
    rcases memWrite_cases p.1 p.2 { s with pendingWrites := ws } with ⟨m, -, -, hnext⟩ | ⟨-, hfault⟩
    · cases hnext.symm.trans h
      rfl
    · cases hfault.symm.trans h

/-- Fewer writes owed keep the invariant. -/
theorem Inv.pendingTail {s : State} {p : Nat × Word} {ws : List (Nat × Word)} (h : Inv s) (hp : s.pendingWrites = p :: ws) :
    Inv { s with pendingWrites := ws } := by
  have hconf : s.state.configured = true := h.pendingConfigured (by simp [hp])
  refine inv_of_configured hconf h.latches h.faultCode h.enables ((h.configured hconf).congr rfl) ?_
  exact fun q hq => h.pendingGood q (by rw [hp]; exact List.mem_cons_of_mem p hq)

/-- Every write owed can be made (`20_memory.md` R64). -/
theorem Inv.drainWrite_completes {s : State} (h : Inv s) : ∃ t, drainWrite s = .next t ∧ Inv t := by
  cases hp : s.pendingWrites with
  | nil => exact ⟨s, drainWrite_idle hp, h⟩
  | cons p ws =>
    have hconf : s.state.configured = true := h.pendingConfigured (by simp [hp])
    obtain ⟨m, hfb, -⟩ := (h.configured hconf).buffer
    obtain ⟨hi, hw⟩ := h.pendingGood p (by simp [hp])
    have hnext := memWrite_of_lt (s := { s with pendingWrites := ws }) p.2 hfb hi
    exact ⟨_, (drainWrite_pending hp).trans hnext, (h.pendingTail hp).memWrite hconf hw hnext⟩

theorem Inv.drainWrite {s t : State} (h : Inv s) (ht : drainWrite s = .next t) : Inv t := by
  obtain ⟨u, hu, hinv⟩ := h.drainWrite_completes
  cases hu.symm.trans ht
  exact hinv

/-! ### Faults -/

theorem stickyFault_le {old : BitVec 3} (h : old.toNat ≤ 4) (r : Raise) : (stickyFault old r.code).toNat ≤ 4 := by
  unfold stickyFault
  split_ifs
  · exact raise_code_le r
  · exact h

theorem stickyFault_ne_zero (old : BitVec 3) (r : Raise) : stickyFault old r.code ≠ 0 := by
  unfold stickyFault
  split_ifs with h
  · cases r <;> simp [Raise.code]
  · exact h

theorem halts_of_endsPlayback {r : Raise} (h : r.endsPlayback = true) : r.halts = true := by
  cases r with
  | malformedFetch k w => rfl
  | _ => cases h

/-- A breach of the HOST changes FAULT and the observations only (R216 d). -/
theorem breached_eq {r : Raise} (h : r.halts = false) (s : State) :
    breached r s = { s with fault := stickyFault s.fault r.code, raised := some r, result := .none } := by
  have hends : r.endsPlayback = false := by
    by_contra hne
    rw [halts_of_endsPlayback (by simpa using hne)] at h
    cases h
  simp [returning, takeFault, h, hends]

theorem Inv.breached {s : State} {r : Raise} (h : Inv s) (hconf : s.state.configured = true) (hr : r.halts = false) :
    Inv (breached r s) := by
  rw [breached_eq hr]
  exact inv_of_configured hconf h.latches (stickyFault_le h.faultCode r) h.enables ((h.configured hconf).congr rfl)
    h.pendingGood

/-- A fatal error outside RUNNING halts with a fault and leaves the rest (R216 b). -/
theorem Inv.halting {s : State} {r : Raise} (h : Inv s) (hp : s.pendingWrites = []) (hrun : s.state ≠ .running)
    (hr : r.halts = true) (hends : r.endsPlayback = false) : Inv (Machine.breached r s) := by
  have hstate : (Machine.breached r s).state = .halted := if_pos hr
  obtain ⟨hen, harmE, harmL⟩ := h.enables
  rw [decide_eq_false hrun] at hen harmE harmL
  constructor
  case latches => exact h.latches
  case memory => exact h.memory
  case faultCode => exact stickyFault_le h.faultCode r
  case enables =>
    rw [hstate]
    simp [takeFault, hends, hen, harmE, harmL]
  case halted => exact fun _ => stickyFault_ne_zero s.fault r
  case uninit => rw [hstate]; exact nofun
  case configured => rw [hstate]; exact nofun
  case pendingGood => rw [returning_pendingWrites, takeFault_pendingWrites, hp]; exact nofun
  case pendingConfigured => exact fun hne => absurd hp hne

/-! ### HOST operations -/

/-- The start sequence of a configured block leaves a good running block (R176). -/
theorem inv_startPlayback {s : State} {r : Result} (hout : sparseWf s.out = true) (hfault : s.fault.toNat ≤ 4)
    (hpend : PendingGood s) (c : Configured (startPlayback s)) : Inv (returning r (startPlayback s)) :=
  inv_of_configured rfl hout hfault ⟨rfl, rfl, rfl⟩ (c.congr rfl) hpend

theorem inv_start_of_stopped {s : State} (h : Inv s) (hs : s.state = .stopped) : Inv (returning .none (startPlayback s)) := by
  have c := h.configured (by rw [hs]; rfl)
  exact inv_startPlayback h.latches h.faultCode h.pendingGood c.startPlayback

theorem pendingGood_of_nil {s : State} (hp : s.pendingWrites = []) : PendingGood s := by
  rw [PendingGood, hp]
  exact nofun

theorem not_running_of_initAdmitted {s : State} (h : initAdmitted s = true) : s.state ≠ .running := by
  rcases (initAdmitted_iff s).mp h with hs | ⟨hs, -⟩ <;> simp [hs]

/-- A HOST operation keeps the invariant, whichever of its effects it has. -/
theorem Inv.hostOp {s t : State} {i : Instr} (h : Inv s) (hp : s.pendingWrites = []) (hop : i.format = .OP)
    (ht : exec i s = .next t) : Inv t := by
  cases exec_effect ht with
  | event v hi => exact absurd hop hi
  | played v => cases hop
  | malformed k w hi => exact absurd hop hi
  | access ws r hconf hws hwrites => exact (h.returning r).memWriteAll hconf hws hwrites
  | breach r hconf hr => exact h.breached hconf hr
  | stopped hs =>
    obtain ⟨c, -⟩ := h.of_running hs
    exact inv_of_configured rfl h.latches h.faultCode ⟨rfl, rfl, rfl⟩ (c.congr rfl) h.pendingGood
  | started hs => exact inv_start_of_stopped h hs
  | initFailed n port mask r ha hr hu =>
    obtain ⟨hhalts, hends⟩ := hr
    have hrun := not_running_of_initAdmitted ha
    rcases hu with rfl | rfl
    · exact h.halting hp hrun hhalts hends
    · have hdraw : Inv (afterDraw s) := h.congr rfl rfl h.latches
      exact hdraw.halting hp hrun hhalts hends
  | initialised n port mask hcfg ha hm hn halloc =>
    have hcap : wordsWanted s.cfg n.toNat ≤ s.cfg.fbCapacity := le_capacity_of_allocAnswer halloc
    have c := configured_of_init (s := afterDraw s) port (freshHandle s) hcfg hm hn hcap
    exact inv_startPlayback h.latches h.faultCode (pendingGood_of_nil hp) c

/-- What ENCRGB begun leaves: a breach, or its writes owed. -/
theorem beginEncrgb_next {i : BitVec 16} {r g b : Byte} {s t : State} (h : beginEncrgb i r g b s = .next t) :
    s.state.configured = true ∧ (t = breached (.fbIndexOutOfRange (24 * i.toNat)) s ∨
      i.toNat < s.ledCount.toNat ∧ t = { s with result := .none, pendingWrites := blockWrites s.mark i.toNat r g b }) := by
  obtain ⟨hconf, hbreach | ⟨hi, hnext⟩⟩ := blockCommand_next h
  · exact ⟨hconf, .inl hbreach⟩
  · cases hnext
    exact ⟨hconf, .inr ⟨hi, rfl⟩⟩

theorem Inv.beginEncrgb {s t : State} {i : BitVec 16} {r g b : Byte} (h : Inv s) (ht : beginEncrgb i r g b s = .next t) :
    Inv t := by
  obtain ⟨hconf, rfl | ⟨hi, rfl⟩⟩ := beginEncrgb_next ht
  · exact h.breached hconf rfl
  · have c := h.configured hconf
    refine inv_of_configured hconf h.latches h.faultCode h.enables (c.congr rfl) ?_
    intro p hmem
    refine ⟨?_, canonical_of_mem_blockWrites hmem⟩
    rw [c.fbLen]
    exact blockWrites_lt hi hmem

theorem Inv.tick {s t : State} (h : Inv s) (ht : tick s = .next t) : Inv t := by
  by_cases hrun : s.state = .running
  · exact (h.keepsPlaying_of_tick hrun ht).inv
  · cases (h.tick_of_not_running hrun).symm.trans ht
    exact h

/-- Settles O51, move by move. -/
theorem stepKeepsInvariant : Obligations.StepKeepsInvariant := by
  intro s t h ht
  obtain ⟨r, hmove, hr⟩ := exists_move_of_step ht
  cases hmove with
  | tick rest hrest => exact (h.inbox rest).tick hr
  | write rest hrest => exact (h.inbox rest).drainWrite hr
  | pins port v rest hin =>
    cases hr
    exact (h.inbox rest).othersWrite port v
  | undecodable f rest e hin => cases hr
  | op f i rest hin hp hdec => exact (h.inbox rest).hostOp hp (format_of_decodeOp hdec) hr
  | begun f i r g b rest hin hp => exact (h.inbox rest).beginEncrgb hr

/-! ### No step ends in the model's own fault (R62, R64) -/

theorem Inv.tick_completes {s : State} (h : Inv s) : ∃ t, Machine.tick s = .next t := by
  by_cases hrun : s.state = .running
  · obtain ⟨t, ht, -⟩ := h.tick_keepsPlaying hrun
    exact ⟨t, ht⟩
  · exact ⟨s, h.tick_of_not_running hrun⟩

theorem exec_init_ne_fault (n : BitVec 32) (port : PortId) (mask : Word) (s : State) (e : Fault) :
    exec (.init n port mask) s ≠ .fault e := by
  intro hf
  cases hcfg : s.cfg.wf with
  | false => cases (exec_init_of_bad_cfg hcfg).symm.trans hf
  | true =>
    by_cases ha : initAdmitted s = true
    · by_cases hm : goodPinMask s.cfg.wordBits mask = true
      · rw [exec_init_of_admitted hcfg ha hm] at hf
        split_ifs at hf
      · cases (exec_init_of_bad_mask hcfg ha hm).symm.trans hf
    · cases (exec_init_of_not_admitted hcfg ha).symm.trans hf

theorem Inv.exec_encrgb_ne_fault {s : State} (h : Inv s) (i : BitVec 16) (r g b : Byte) (e : Fault) :
    exec (.encrgb i r g b) s ≠ .fault e := by
  intro hf
  cases hconf : s.state.configured with
  | false => cases (blockCommand_of_not_configured i _ hconf).symm.trans hf
  | true =>
    have c := h.configured hconf
    obtain ⟨m, hfb, -⟩ := c.buffer
    rcases Nat.lt_or_ge i.toNat s.ledCount.toNat with hi | hi
    · cases (exec_encrgb_of_lt r g b hconf hfb hi c.fbLen).symm.trans hf
    · cases (blockCommand_of_le i _ hconf hi).symm.trans hf

theorem Inv.exec_fbwr_ne_fault {s : State} (h : Inv s) (i : BitVec 16) (w : Word) (e : Fault) :
    exec (.fbwr i w) s ≠ .fault e := by
  intro hf
  cases hconf : s.state.configured with
  | false => cases (exec_fbwr_of_not_configured i w hconf).symm.trans hf
  | true =>
    obtain ⟨m, hfb, -⟩ := (h.configured hconf).buffer
    rcases Nat.lt_or_ge i.toNat s.fbLen.toNat with hi | hi
    · by_cases hw : w = 0 ∨ w = s.mark
      · rw [exec_fbwr_of_canonical hconf hi hw, memWrite_of_lt (s := Machine.returning .none s) w hfb hi] at hf
        cases hf
      · obtain ⟨h0, hm⟩ := not_or.mp hw
        cases (exec_fbwr_of_malformed hconf hi h0 hm).symm.trans hf
    · cases (exec_fbwr_of_le w hconf hi).symm.trans hf

theorem Inv.exec_fbrd_ne_fault {s : State} (h : Inv s) (i : BitVec 16) (e : Fault) : exec (.fbrd i) s ≠ .fault e := by
  intro hf
  cases hconf : s.state.configured with
  | false => cases (exec_fbrd_of_not_configured i hconf).symm.trans hf
  | true =>
    obtain ⟨m, hfb, -⟩ := (h.configured hconf).buffer
    rcases Nat.lt_or_ge i.toNat s.fbLen.toNat with hi | hi
    · cases (exec_fbrd_of_read hconf (memRead_of_lt hfb hi)).symm.trans hf
    · cases (exec_fbrd_of_le hconf hi).symm.trans hf

/-- Only the three operations that access FB could fault, and a good block's accesses exist. -/
theorem Inv.hostOp_ne_fault {s : State} {i : Instr} (h : Inv s) (hop : i.format = .OP) (e : Fault) :
    exec i s ≠ .fault e := by
  cases i with
  | init n port mask => exact exec_init_ne_fault n port mask s e
  | stop => unfold exec execStop; split_ifs <;> simp
  | start => unfold exec execStart; split_ifs <;> simp
  | enc8 v => unfold exec execEnc8; split_ifs <;> simp
  | encrgb i r g b => exact h.exec_encrgb_ne_fault i r g b e
  | fbwr i w => exact h.exec_fbwr_ne_fault i w e
  | fbrd i => exact h.exec_fbrd_ne_fault i e
  | t1 => cases hop
  | t0 m => cases hop
  | sym q => cases hop
  | seqSet => cases hop
  | seqEarly => cases hop
  | seqLate => cases hop

theorem beginEncrgb_ne_fault (i : BitVec 16) (r g b : Byte) (s : State) (e : Fault) :
    Machine.beginEncrgb i r g b s ≠ .fault e := by
  unfold Machine.beginEncrgb blockCommand
  split_ifs <;> simp

/-- Settles O56: each move completes or is refused, and only an operation's move can be refused. -/
theorem stepNeverFaults : Obligations.StepNeverFaults := by
  constructor
  · intro s e h hf
    obtain ⟨r, hmove, hr⟩ := exists_move_of_step hf
    cases hmove with
    | tick rest hrest =>
      obtain ⟨t, ht⟩ := (h.inbox rest).tick_completes
      cases ht.symm.trans hr
    | write rest hrest =>
      obtain ⟨t, ht, -⟩ := (h.inbox rest).drainWrite_completes
      cases ht.symm.trans hr
    | pins port v rest hin => cases hr
    | undecodable f rest e hin => cases hr
    | op f i rest hin hp hdec => exact (h.inbox rest).hostOp_ne_fault (format_of_decodeOp hdec) e hr
    | begun f i r g b rest hin hp => exact beginEncrgb_ne_fault i r g b _ e hr
  · intro s h hno
    have hnot : ∀ f rest, ¬ HostNext f rest s := by
      rintro f rest (hin | hin)
      · exact (hno f).1 (by rw [hin]; rfl)
      · exact (hno f).2 (by rw [hin]; rfl)
    obtain ⟨r, hmove, hr⟩ := exists_move_of_step (s := s) rfl
    rw [← hr]
    cases hmove with
    | tick rest hrest => exact (h.inbox rest).tick_completes
    | write rest hrest =>
      obtain ⟨t, ht, -⟩ := (h.inbox rest).drainWrite_completes
      exact ⟨t, ht⟩
    | pins port v rest hin => exact ⟨_, rfl⟩
    | undecodable f rest e hin => exact absurd hin (hnot f rest)
    | op f i rest hin hp hdec => exact absurd hin (hnot f rest)
    | begun f i r g b rest hin hp => exact absurd hin (hnot f rest)

end Sys2Proof.Machine
end

section
/-! What a step leaves unchanged: FAULT (O42), the configuration (O43), the lifecycle state (O40, O41, O44) and the agreement of
the masked pins (O30). Each is read off the moves of a step. -/

namespace Sys2Proof.Machine

/-! ### A tick in any state -/

/-- A property that every instruction but INIT keeps, and the counters keep, is kept by a tick. -/
theorem tick_keeps {P : State → Prop}
    (hexec : ∀ i u v, (∀ n port mask, i ≠ .init n port mask) → P u → exec i u = .next v → P v)
    (hcount : ∀ u, P u → P (advanceCounters u)) {s t : State} (hs : P s) (h : tick s = .next t) : P t := by
  have hevent : ∀ (c : Bool) (i : Instr) (u v : State), (∀ n port mask, i ≠ .init n port mask) → P u →
      eventIf c (exec i) u = .next v → P v := by
    intro c i u v hi hu hv
    cases c with
    | false => cases hv; exact hu
    | true => exact hexec i u v hi hu hv
  unfold tick at h
  split_ifs at h
  · obtain ⟨s1, h1, h⟩ := next_of_andThen h
    obtain ⟨s2, h2, h⟩ := next_of_andThen h
    obtain ⟨s3, h3, h⟩ := next_of_andThen h
    cases h
    have hs1 := hevent _ .seqSet s s1 nofun hs h1
    have hs2 := hevent _ .seqEarly s1 s2 nofun hs1 h2
    exact hcount s3 (hevent _ .seqLate s2 s3 nofun hs2 h3)
  · cases h
    exact hs

/-! ### FAULT (R22, R216 a) -/

/-- Settles O42: no move changes a FAULT that is not zero. -/
theorem faultIsSticky : Obligations.FaultIsSticky := by
  intro s t hf ht
  obtain ⟨r, hmove, hr⟩ := exists_move_of_step ht
  cases hmove with
  | tick rest hrest =>
    refine tick_keeps (P := fun u => u.fault = s.fault) (s := { s with inbox := rest }) ?_ ?_ rfl hr
    · intro i u v _ hu hv
      exact (exec_keeps_fault hv (hu ▸ hf)).trans hu
    · intro u hu
      rw [advanceCounters_fault, hu]
  | write rest hrest => rw [drainWrite_frame hr]
  | pins port v rest hin => cases hr; rfl
  | undecodable f rest e hin => cases hr
  | op f i rest hin hp hdec => exact exec_keeps_fault (s := { s with inbox := rest }) hr hf
  | begun f i r g b rest hin hp =>
    obtain ⟨-, rfl | ⟨-, rfl⟩⟩ := beginEncrgb_next hr
    · exact takeFault_keeps_fault _ hf
    · rfl

/-! ### The configuration (R23, R26, R173) -/

theorem configRegs_beginEncrgb {i : BitVec 16} {r g b : Byte} {s t : State} (h : beginEncrgb i r g b s = .next t) :
    configRegs t = configRegs s := by
  obtain ⟨-, rfl | ⟨-, rfl⟩⟩ := beginEncrgb_next h <;> rfl

theorem configRegs_tick {s t : State} (h : tick s = .next t) : configRegs t = configRegs s := by
  refine tick_keeps (P := fun u => configRegs u = configRegs s) ?_ ?_ rfl h
  · intro i u v hi hu hv
    exact (exec_configRegs hv hi).trans hu
  · intro u hu
    rw [configRegs_advanceCounters, hu]

/-- A step keeps the configuration registers, or it executes an INIT at the head of the schedule. -/
theorem step_configRegs {s t : State} (ht : step s = .next t) :
    configRegs t = configRegs s ∨ ∃ f n port mask rest, HostNext f rest s ∧ s.pendingWrites = [] ∧
      decodeOp f = .ok (.init n port mask) ∧ exec (.init n port mask) { s with inbox := rest } = .next t := by
  obtain ⟨r, hmove, hr⟩ := exists_move_of_step ht
  cases hmove with
  | tick rest hrest => exact .inl (configRegs_tick (s := { s with inbox := rest }) hr)
  | write rest hrest =>
    rw [drainWrite_frame hr]
    exact .inl rfl
  | pins port v rest hin => cases hr; exact .inl rfl
  | undecodable f rest e hin => cases hr
  | op f i rest hin hp hdec =>
    by_cases hinit : ∃ n port mask, i = .init n port mask
    · obtain ⟨n, port, mask, rfl⟩ := hinit
      exact .inr ⟨f, n, port, mask, rest, hin, hp, hdec, hr⟩
    · exact .inl (exec_configRegs (s := { s with inbox := rest }) hr fun n port mask hi => hinit ⟨n, port, mask, hi⟩)
  | begun f i r g b rest hin hp => exact .inl (configRegs_beginEncrgb (s := { s with inbox := rest }) hr)

theorem initAdmitted_of_exec_init {n : BitVec 32} {port : PortId} {mask : Word} {s t : State}
    (h : exec (.init n port mask) s = .next t) : initAdmitted s = true := by
  by_contra ha
  cases hcfg : s.cfg.wf with
  | false => cases (exec_init_of_bad_cfg hcfg).symm.trans h
  | true => cases (exec_init_of_not_admitted hcfg ha).symm.trans h

/-- The operation at the head of the schedule is one operation. -/
theorem HostNext.head {f : OpForm} {rest : List Input} {s : State} (h : HostNext f rest s) :
    s.inbox.head? = some (.op f) ∨ s.inbox.head? = some (.split f) := by
  rcases h with h | h
  · exact .inl (by rw [h]; rfl)
  · exact .inr (by rw [h]; rfl)

/-- Settles O43: only an INIT writes the registers, it is not admitted in the first clause and not executed in the second. -/
theorem configurationIsConstant : Obligations.ConfigurationIsConstant := by
  refine ⟨?_, ?_, ?_⟩
  · intro s t hs hreinit ht
    have hregs : configRegs t = configRegs s := by
      refine (step_configRegs ht).resolve_right ?_
      rintro ⟨f, n, port, mask, rest, -, -, -, hexec⟩
      rcases (initAdmitted_iff _).mp (initAdmitted_of_exec_init hexec) with huninit | ⟨-, hallow⟩
      · exact hs huninit
      · exact Bool.false_ne_true (hreinit.symm.trans hallow)
    obtain ⟨h1, h2, h3, h4, h5, h6, h7, h8, -⟩ := configRegs_eq_iff.mp hregs
    exact ⟨h1, h2, h3, h4, h5, h6, h7, h8⟩
  · intro s t hno ht
    have hregs : configRegs t = configRegs s := by
      refine (step_configRegs ht).resolve_right ?_
      rintro ⟨f, n, port, mask, rest, hin, hp, hdec, -⟩
      have hop : f.op = 0x1 := selector_of_decodeOp hdec rfl
      obtain ⟨hnotop, hnotsplit⟩ := hno.resolve_right (not_not.mpr hp) f hop
      exact hin.head.elim hnotop hnotsplit
    obtain ⟨h1, h2, h3, h4, h5, h6, h7, h8, -⟩ := configRegs_eq_iff.mp hregs
    exact ⟨h1, h2, h3, h4, h5, h6, h7, h8⟩
  · intro s t ht
    rcases step_configRegs ht with hregs | ⟨f, n, port, mask, rest, -, -, -, hexec⟩
    · exact congrArg ConfigRegs.cfg hregs
    · exact exec_cfg (s := { s with inbox := rest }) hexec

/-! ### The lifecycle state (R21, R153, R170) -/

theorem state_beginEncrgb {i : BitVec 16} {r g b : Byte} {s t : State} (h : beginEncrgb i r g b s = .next t) :
    t.state = s.state := by
  obtain ⟨-, rfl | ⟨-, rfl⟩⟩ := beginEncrgb_next h <;> rfl

/-- Settles O40: of the moves only an operation writes STATE, and of the operations only START and INIT make it RUNNING. -/
theorem onlyInitAndStartSetRunning : Obligations.OnlyInitAndStartSetRunning := by
  refine ⟨fun s h hrun => h.tick_of_not_running hrun, fun i s t => exec_starts_running, ?_⟩
  intro s t h hs ht hrun
  obtain ⟨r, hmove, hr⟩ := exists_move_of_step ht
  cases hmove with
  | tick rest hrest =>
    cases ((h.inbox rest).tick_of_not_running hs).symm.trans hr
    exact absurd hrun hs
  | write rest hrest =>
    rw [drainWrite_frame hr] at hrun
    exact absurd hrun hs
  | pins port v rest hin => cases hr; exact absurd hrun hs
  | undecodable f rest e hin => cases hr
  | op f i rest hin hp hdec =>
    refine ⟨hp, f, rest, ?_, hin⟩
    rcases exec_starts_running hr hs hrun with rfl | ⟨n, port, mask, rfl⟩
    · exact .inr (selector_of_decodeOp hdec rfl)
    · exact .inl (selector_of_decodeOp hdec rfl)
  | begun f i r g b rest hin hp => exact absurd ((state_beginEncrgb hr).symm.trans hrun) hs

/-- In HALTED every HOST operation is refused (R217). -/
theorem exec_refused_of_halted {s : State} {i : Instr} (hs : s.state = .halted) (hop : i.format = .OP) :
    ∃ e, exec i s = .refused e := by
  have hconf : s.state.configured = false := by rw [hs]; rfl
  cases i with
  | init n port mask =>
    have ha : ¬ initAdmitted s = true := by simp [initAdmitted_iff, hs]
    cases hcfg : s.cfg.wf with
    | false => exact ⟨_, exec_init_of_bad_cfg hcfg⟩
    | true => exact ⟨_, exec_init_of_not_admitted hcfg ha⟩
  | stop => exact ⟨_, (stopStopsPlayback s).2 (by simp [hs])⟩
  | start => exact ⟨_, (startRestartsPlayback s).2 (by simp [hs])⟩
  | enc8 v => exact ⟨_, exec_enc8_of_not_configured v hconf⟩
  | encrgb i r g b => exact ⟨_, blockCommand_of_not_configured i _ hconf⟩
  | fbwr i w => exact ⟨_, exec_fbwr_of_not_configured i w hconf⟩
  | fbrd i => exact ⟨_, exec_fbrd_of_not_configured i hconf⟩
  | t1 => cases hop
  | t0 m => cases hop
  | sym q => cases hop
  | seqSet => cases hop
  | seqEarly => cases hop
  | seqLate => cases hop

/-- Settles O41: nothing is owed in HALTED, the tick idles, every operation is refused, and what is left is the outside. -/
theorem haltedIsTerminal : Obligations.HaltedIsTerminal := by
  constructor
  · intro s f i hs hdec
    exact exec_refused_of_halted hs (format_of_decodeOp hdec)
  · intro s t h hs ht
    obtain ⟨r, hmove, hr⟩ := exists_move_of_step ht
    cases hmove with
    | tick rest hrest =>
      cases ((h.inbox rest).tick_of_not_running (by simp [hs])).symm.trans hr
      exact ⟨hs, rfl, fun _ => rfl⟩
    | write rest hrest =>
      rw [drainWrite_frame hr]
      exact ⟨hs, rfl, fun _ => rfl⟩
    | pins port v rest hin =>
      cases hr
      exact ⟨hs, rfl, fun hno => absurd (by rw [hin]; rfl) (hno port v)⟩
    | undecodable f rest e hin => cases hr
    | op f i rest hin hp hdec =>
      obtain ⟨e, he⟩ := exec_refused_of_halted (s := { s with inbox := rest }) hs (format_of_decodeOp hdec)
      cases he.symm.trans hr
    | begun f i r g b rest hin hp =>
      obtain ⟨hconf, -⟩ := beginEncrgb_next hr
      cases (congrArg Lifecycle.configured hs).symm.trans hconf

/-- In RUNNING no HOST operation but STOP ends playback (R153). -/
theorem stop_of_hostOp_ends {s t : State} {i : Instr} (hop : i.format = .OP) (hs : s.state = .running)
    (h : exec i s = .next t) (ht : t.state ≠ .running) : i = .stop ∧ t.state = .stopped ∧ t.fault = s.fault := by
  cases exec_effect h with
  | event v hi => exact absurd hop hi
  | played v => cases hop
  | malformed k w hi => exact absurd hop hi
  | access ws r hc hws hwrites =>
    rw [access_frame hwrites] at ht
    exact absurd hs ht
  | breach r hc hr =>
    rw [breached_eq hr] at ht
    exact absurd hs ht
  | stopped hrun => exact ⟨rfl, rfl, rfl⟩
  | started hstopped => cases hs.symm.trans hstopped
  | initFailed n port mask r ha hr hu => exact absurd hs (not_running_of_initAdmitted ha)
  | initialised n port mask hcfg ha hm hn halloc => exact absurd hs (not_running_of_initAdmitted ha)

/-- Settles O44: of the moves of a running block only an operation can end playback, and it is STOP. -/
theorem onlyStopEndsPlayback : Obligations.OnlyStopEndsPlayback := by
  intro s t h hs ht hend
  obtain ⟨r, hmove, hr⟩ := exists_move_of_step ht
  cases hmove with
  | tick rest hrest => exact absurd ((h.inbox rest).keepsPlaying_of_tick hs hr).running hend
  | write rest hrest =>
    rw [drainWrite_frame hr] at hend
    exact absurd hs hend
  | pins port v rest hin => cases hr; exact absurd hs hend
  | undecodable f rest e hin => cases hr
  | op f i rest hin hp hdec =>
    obtain ⟨rfl, hstopped, hfault⟩ := stop_of_hostOp_ends (s := { s with inbox := rest }) (format_of_decodeOp hdec) hs hr hend
    exact ⟨hstopped, hfault, f, rest, selector_of_decodeOp hdec rfl, hin⟩
  | begun f i r g b rest hin hp => exact absurd ((state_beginEncrgb hr).trans hs) hend

/-! ### The masked pins (R151) -/

/-- The masked pins agree in any state with the same mask whose latch is the same at the mask. -/
theorem MaskedUniform.congr {s t : State} (h : MaskedUniform s) (hmask : t.pinMask = s.pinMask)
    (hlatch : latch t t.portSel &&& s.pinMask = latch s s.portSel &&& s.pinMask) : MaskedUniform t := by
  rw [MaskedUniform, hmask, hlatch]
  exact h

theorem or_and_self (x m : Word) : (x ||| m) &&& m = m := by
  apply BitVec.eq_of_getLsbD_eq
  intro p hp
  rw [BitVec.getLsbD_and, BitVec.getLsbD_or]
  cases m.getLsbD p <;> simp

theorem and_not_and_self (x m : Word) : x &&& ~~~m &&& m = 0 := by
  apply BitVec.eq_of_getLsbD_eq
  intro p hp
  simp

/-- A tick's event leaves the masked pins, raises them all or lowers them all. -/
theorem TickEvent.maskedUniform {s u : State} (ev : TickEvent s u) (c : Configured s) (hregs : configRegs u = configRegs s)
    (h : MaskedUniform s) : MaskedUniform u := by
  obtain ⟨-, hport, hmask, -⟩ := configRegs_eq_iff.mp hregs
  rcases ev.latch_cases c s.portSel with hsame | ⟨-, hhigh | hlow⟩
  · exact h.congr hmask (by rw [hport, hsame])
  · rw [MaskedUniform, hport, hmask, hhigh]
    exact .inl (or_and_self _ _)
  · rw [MaskedUniform, hport, hmask, hlow]
    exact .inr (and_not_and_self _ _)

/-- An outside write spares the driven pins. -/
theorem maskedUniform_othersWrite {s : State} (hs : s.state = .running) (h : MaskedUniform s) (port : PortId) (v : Word) :
    MaskedUniform (othersWrite port v s) := by
  refine h.congr rfl ?_
  rw [othersWrite_portSel]
  by_cases hport : s.portSel = port
  · subst hport
    apply BitVec.eq_of_getLsbD_eq
    intro p hp
    rw [BitVec.getLsbD_and, BitVec.getLsbD_and, getLsbD_latch_othersWrite _ v s hp]
    cases hbit : s.pinMask.getLsbD p <;> simp [hs]
  · rw [latch_othersWrite, if_neg hport]

/-- Settles O30: the events by the rule above, the outside by what it spares; nothing else writes OUT, and the mask is
constant in RUNNING. -/
theorem maskedPinsMoveTogether : Obligations.MaskedPinsMoveTogether := by
  constructor
  · intro s t h hs huniform ht _
    obtain ⟨r, hmove, hr⟩ := exists_move_of_step ht
    cases hmove with
    | tick rest hrest =>
      have h' := h.inbox rest
      obtain ⟨u, ev, htick⟩ := h'.tick_of_running hs
      cases htick.symm.trans hr
      obtain ⟨c, -⟩ := h'.of_running hs
      have hu := ev.maskedUniform c (ev.keepsPlaying h' hs).configRegs huniform
      exact hu.congr (advanceCounters_pinMask u) (by rw [latch_advanceCounters, advanceCounters_portSel])
    | write rest hrest =>
      rw [drainWrite_frame hr]
      exact huniform
    | pins port v rest hin =>
      cases hr
      exact maskedUniform_othersWrite (s := { s with inbox := rest }) hs huniform port v
    | undecodable f rest e hin => cases hr
    | op f i rest hin hp hdec =>
      have hout : t.out = s.out := hostOperationsLeavePins f i { s with inbox := rest } t hdec hr
      have hregs : configRegs t = configRegs s := by
        refine exec_configRegs (s := { s with inbox := rest }) hr ?_
        rintro n port mask rfl
        exact not_running_of_initAdmitted (initAdmitted_of_exec_init hr) hs
      obtain ⟨-, hport, hmask, -⟩ := configRegs_eq_iff.mp hregs
      exact huniform.congr hmask (by rw [latch, latch, hout, hport])
    | begun f i r g b rest hin hp =>
      obtain ⟨-, rfl | ⟨-, rfl⟩⟩ := beginEncrgb_next hr
      · exact huniform
      · exact huniform
  · intro s t h ht
    by_cases hturn : setTurn s = true
    · obtain ⟨hrun, -⟩ := (setTurn_iff s).mp hturn
      obtain ⟨c, -⟩ := h.of_running hrun
      cases (exec_seqSet_of_setTurn hturn).symm.trans ht
      left
      rw [portWrite_portSel, portWrite_pinMask, latch_portWrite_sel, c.setW, portEffect_set]
      exact or_and_self _ _
    · cases (exec_seqSet_of_not_setTurn hturn).symm.trans ht

end Sys2Proof.Machine
end

section
/-! Runs: the clock left alone for any number of ticks (O31), one bit period in closed form (O32, O33), any number of bit periods
(O34, O54), and the machine left alone with the writes still owed (O45). -/

namespace Sys2Proof.Machine

/-! ### Sequences of ticks -/

theorem andThen_assoc (r : Answer) (f g : State → Answer) :
    andThen (andThen r f) g = andThen r fun s => andThen (f s) g := by
  cases r <;> rfl

theorem ticks_succ (n : Nat) (s : State) : ticks (n + 1) s = andThen (tick s) (ticks n) := rfl

theorem ticks_one (s : State) : ticks 1 s = tick s := by
  rw [ticks_succ]
  cases tick s <;> rfl

theorem ticks_add (m n : Nat) (s : State) : ticks (m + n) s = andThen (ticks m s) (ticks n) := by
  induction m generalizing s with
  | zero => rw [Nat.zero_add, ticks, andThen_next]
  | succ m ih =>
    rw [Nat.succ_add, ticks_succ, ticks_succ, andThen_assoc]
    congr 1
    exact funext ih

/-- A good running block plays any number of ticks, and the cadence counter counts them modulo P. -/
theorem Inv.ticks_keepsPlaying {s : State} (h : Inv s) (hrun : s.state = .running) (n : Nat) :
    ∃ t, ticks n s = .next t ∧ KeepsPlaying s t ∧ t.cntC = (s.cntC + n) % s.cfg.p := by
  induction n generalizing s with
  | zero =>
    obtain ⟨c, -⟩ := h.of_running hrun
    exact ⟨s, rfl, .refl h hrun, (Nat.mod_eq_of_lt c.cntC).symm⟩
  | succ n ih =>
    obtain ⟨u, htick, hkeep, hcnt⟩ := h.tick_keepsPlaying hrun
    obtain ⟨t, hticks, hkeep', hcnt'⟩ := ih hkeep.inv hkeep.running
    have hcfg : u.cfg = s.cfg := congrArg ConfigRegs.cfg hkeep.configRegs
    refine ⟨t, ?_, hkeep.trans hkeep', ?_⟩
    · rw [ticks_succ, htick, andThen_next, hticks]
    · rw [hcnt', hcnt, hcfg, Nat.mod_add_mod, Nat.add_assoc, Nat.add_comm 1 n]

theorem exec_start_of_stopped {s : State} (hs : s.state = .stopped) :
    exec .start s = .next (returning .none (startPlayback s)) :=
  if_pos hs

/-- Settles O31: the ticks are counted from the start sequence, and the other counters are in phase. -/
theorem countersFollowTicks : Obligations.CountersFollowTicks := by
  intro n s h hs
  obtain ⟨t, hticks, hkeep, hcnt⟩ := (inv_start_of_stopped h hs).ticks_keepsPlaying rfl n
  obtain ⟨c, -⟩ := hkeep.inv.of_running hkeep.running
  have hcfg : t.cfg = s.cfg := congrArg ConfigRegs.cfg hkeep.configRegs
  have hcntC : t.cntC = n % s.cfg.p := by
    rw [hcnt]
    show (0 + n) % s.cfg.p = n % s.cfg.p
    rw [Nat.zero_add]
  refine ⟨_, t, exec_start_of_stopped hs, hticks, hcntC, ?_, ?_, hkeep.running, hkeep.fault⟩
  · rw [c.cntE, hcfg, hcntC, Nat.mod_add_mod]
  · rw [c.cntL, hcfg, hcntC, Nat.mod_add_mod]

/-! ### One bit period in closed form (R148, R149) -/

/-- The state with its counters as `n` ticks after the beginning of a bit period leave them. -/
def countersAt (n : Nat) (s : State) : State :=
  { s with cntC := n % s.cfg.p, cntE := (n + phaseE s.cfg) % s.cfg.p, cntL := (n + phaseL s.cfg) % s.cfg.p }

/-- SEQ.SET and then SEQ.EARLY with the word `w`. -/
def playedEarly (w : Word) (s : State) : State := advancePos (portWrite (w ++ 0#16) (portWrite s.setW s))

/-- The events of the first `n` ticks of a bit period whose word is `w`, done (`ticks_of_period`). -/
def playedTicks (w : Word) (n : Nat) (s : State) : State :=
  if n = 0 then s
  else if n ≤ s.cfg.e then portWrite s.setW s
  else if n ≤ s.cfg.l then playedEarly w s
  else portWrite s.clrW (playedEarly w s)

section PlayedTicks
variable (w : Word) {n : Nat} {s : State}

theorem playedTicks_zero : playedTicks w 0 s = s := if_pos rfl

theorem playedTicks_set (h0 : n ≠ 0) (he : n ≤ s.cfg.e) : playedTicks w n s = portWrite s.setW s := by
  rw [playedTicks, if_neg h0, if_pos he]

theorem playedTicks_early (h0 : n ≠ 0) (he : ¬ n ≤ s.cfg.e) (hl : n ≤ s.cfg.l) : playedTicks w n s = playedEarly w s := by
  rw [playedTicks, if_neg h0, if_neg he, if_pos hl]

theorem playedTicks_late (h0 : n ≠ 0) (he : ¬ n ≤ s.cfg.e) (hl : ¬ n ≤ s.cfg.l) :
    playedTicks w n s = portWrite s.clrW (playedEarly w s) := by
  rw [playedTicks, if_neg h0, if_neg he, if_neg hl]

/-- A tick without an event adds nothing. -/
theorem playedTicks_succ_of_idle (h0 : n ≠ 0) (he : n ≠ s.cfg.e) (hl : n ≠ s.cfg.l) :
    playedTicks w (n + 1) s = playedTicks w n s := by
  have h0' : ¬ n + 1 = 0 := Nat.succ_ne_zero n
  have he' : n + 1 ≤ s.cfg.e ↔ n ≤ s.cfg.e := by omega
  have hl' : n + 1 ≤ s.cfg.l ↔ n ≤ s.cfg.l := by omega
  simp only [playedTicks, h0, h0', he', hl']

end PlayedTicks

theorem countersAt_zero {s : State} (c : Configured s) (hC : s.cntC = 0) : countersAt 0 s = s := by
  obtain ⟨hlt, hE, hL⟩ := c.inPhase
  rw [hC] at hE hL hlt
  rw [countersAt, ← hE, ← hL, Nat.zero_mod, ← hC]

/-- The event that follows `n` ticks of a bit period is the next of the period's events. -/
theorem TickEvent.eq_playedTicks {n : Nat} {w : Word} {s u : State} (hcfg : s.cfg.wf = true) (hn : n < s.cfg.p)
    (hread : memRead s s.pos.toNat = some w) (hplayed : (playedTicks w n s).cfg = s.cfg)
    (ev : TickEvent (countersAt n (playedTicks w n s)) u) : u = countersAt n (playedTicks w (n + 1) s) := by
  obtain ⟨he, hel, hlp⟩ := offsets_of_wf hcfg
  have hcnt : (countersAt n (playedTicks w n s)).cntC = n := by
    show n % (playedTicks w n s).cfg.p = n
    rw [hplayed, Nat.mod_eq_of_lt hn]
  have hcfg' : (countersAt n (playedTicks w n s)).cfg = s.cfg := hplayed
  cases ev with
  | set hC hexec =>
    obtain rfl : n = 0 := hcnt.symm.trans hC
    rw [playedTicks_zero, playedTicks_set w (by omega) (by omega)]
    rfl
  | early v hE hread' hv hexec =>
    obtain rfl : n = s.cfg.e := by rw [← hcnt, hE, hcfg']
    rw [playedTicks_set w (by omega) le_rfl] at hread' ⊢
    obtain rfl : w = v := Option.some.inj (hread.symm.trans hread')
    rw [playedTicks_early w (by omega) (by omega) (by omega)]
    rfl
  | late hL hexec =>
    obtain rfl : n = s.cfg.l := by rw [← hcnt, hL, hcfg']
    rw [playedTicks_early w (by omega) (by omega) le_rfl, playedTicks_late w (by omega) (by omega) (by omega)]
    rfl
  | idle hC hE hL =>
    rw [hcnt] at hC
    rw [hcnt, hcfg'] at hE hL
    rw [playedTicks_succ_of_idle w hC hE hL]

theorem advanceCounters_countersAt {n : Nat} {s t : State} (h : KeepsPlaying t (countersAt n s)) :
    advanceCounters (countersAt n s) = countersAt (n + 1) s := by
  have hC : (n % s.cfg.p + 1) % s.cfg.p = (n + 1) % s.cfg.p := Nat.mod_add_mod ..
  have hsucc : ∀ d, ((n + d) % s.cfg.p + 1) % s.cfg.p = (n + 1 + d) % s.cfg.p := fun d => by
    rw [Nat.mod_add_mod, Nat.add_right_comm]
  rw [h.advanceCounters_eq]
  simp only [countersAt, hC, hsucc]

/-- The first `n` ticks of a bit period whose word is `w`. -/
theorem Inv.ticks_of_period {s : State} {w : Word} (h : Inv s) (hrun : s.state = .running) (hC : s.cntC = 0)
    (hread : memRead s s.pos.toNat = some w) {n : Nat} (hn : n ≤ s.cfg.p) :
    ticks n s = .next (countersAt n (playedTicks w n s)) := by
  obtain ⟨c, -⟩ := h.of_running hrun
  induction n with
  | zero => rw [playedTicks_zero, countersAt_zero c hC, ticks]
  | succ n ih =>
    have hticks := ih (by omega)
    obtain ⟨v, hv, hkeep, -⟩ := h.ticks_keepsPlaying hrun n
    cases hv.symm.trans hticks
    obtain ⟨u, ev, htick⟩ := hkeep.inv.tick_of_running hkeep.running
    have hkeep' := ev.keepsPlaying hkeep.inv hkeep.running
    obtain rfl := ev.eq_playedTicks c.cfgWf (by omega) hread (congrArg ConfigRegs.cfg hkeep.configRegs)
    rw [ticks_add, hticks, andThen_next, ticks_one, htick, advanceCounters_countersAt hkeep']

/-! ### The pulse (R149, R160) -/

theorem latch_countersAt (n : Nat) (s : State) (port : PortId) : latch (countersAt n s) port = latch s port := rfl

theorem latch_played_set {s : State} (c : Configured s) :
    latch (portWrite s.setW s) s.portSel = latch s s.portSel ||| s.pinMask := by
  rw [latch_portWrite_sel, c.setW, portEffect_set]

theorem latch_played_early {s : State} (c : Configured s) (w : Word) :
    latch (playedEarly w s) s.portSel = (latch s s.portSel ||| s.pinMask) &&& ~~~w := by
  have hlatch : latch (playedEarly w s) s.portSel = portEffect (w ++ 0#16) (latch (portWrite s.setW s) s.portSel) :=
    latch_portWrite_sel (w ++ 0#16) (portWrite s.setW s)
  rw [hlatch, portEffect_clear, latch_played_set c]

theorem latch_played_late {s : State} (c : Configured s) (w : Word) :
    latch (portWrite s.clrW (playedEarly w s)) s.portSel = ((latch s s.portSel ||| s.pinMask) &&& ~~~w) &&& ~~~s.pinMask := by
  have hlatch : latch (portWrite s.clrW (playedEarly w s)) s.portSel =
      portEffect s.clrW (latch (playedEarly w s) s.portSel) :=
    latch_portWrite_sel s.clrW (playedEarly w s)
  rw [hlatch, c.clrW, portEffect_clear, latch_played_early c]

theorem or_and_not_self (x m : Word) : (x ||| m) &&& ~~~m = x &&& ~~~m := by
  apply BitVec.eq_of_getLsbD_eq
  intro p hp
  rw [BitVec.getLsbD_and, BitVec.getLsbD_and, BitVec.getLsbD_or, BitVec.getLsbD_not]
  cases m.getLsbD p <;> simp

theorem and_not_and_not_self (x m : Word) : (x &&& ~~~m) &&& ~~~m = x &&& ~~~m := by
  rw [BitVec.and_assoc, BitVec.and_self]

theorem and_not_zero (x : Word) : x &&& ~~~(0 : Word) = x := BitVec.and_allOnes

/-- Settles O32: the latch after SEQ.SET, after SEQ.EARLY with either word, and after SEQ.LATE. -/
theorem bitPeriodShapesPulse : Obligations.BitPeriodShapesPulse := by
  rintro n s m w h hrun hC hfb rfl hpos hn
  obtain ⟨c, -⟩ := h.of_running hrun
  obtain ⟨he, hel, hlp⟩ := offsets_of_wf c.cfgWf
  have hread := memRead_of_lt hfb c.pos
  refine ⟨_, h.ticks_of_period hrun hC hread hn, ?_⟩
  have hword : m.readWord (wordStride s.cfg) s.pos.toNat = 0 ∨ m.readWord (wordStride s.cfg) s.pos.toNat = s.mark := by
    obtain ⟨w, hread', hw⟩ := c.fetch
    exact Option.some.inj (hread.symm.trans hread') ▸ hw
  generalize m.readWord (wordStride s.cfg) s.pos.toNat = w at hword
  rw [latch_countersAt]
  by_cases hset : n ≤ s.cfg.e
  · have hhigh : n ≤ if w = 0 then s.cfg.l else s.cfg.e := by split_ifs <;> omega
    rw [playedTicks_set w (by omega) hset, if_pos hhigh, latch_played_set c]
  by_cases hearly : n ≤ s.cfg.l
  · rw [playedTicks_early w (by omega) hset hearly, latch_played_early c]
    by_cases h0 : w = 0
    · rw [if_pos h0, if_pos hearly, h0, and_not_zero]
    · rw [if_neg h0, if_neg hset, hword.resolve_left h0, c.mark, or_and_not_self]
  · have hlow : ¬ n ≤ if w = 0 then s.cfg.l else s.cfg.e := by split_ifs <;> omega
    rw [playedTicks_late w (by omega) hset hearly, if_neg hlow, latch_played_late c]
    by_cases h0 : w = 0
    · rw [h0, and_not_zero, or_and_not_self]
    · rw [hword.resolve_left h0, c.mark, or_and_not_self, and_not_and_not_self]

/-! ### Whole bit periods (R148, R152) -/

theorem runPeriods_one (s : State) : runPeriods 1 s = ticks s.cfg.p s := by
  rw [runPeriods, Nat.one_mul]

/-- Settles O33: the closed form at n = P, where all three events are done. -/
theorem bitPeriodMakesThreePortWrites : Obligations.BitPeriodMakesThreePortWrites := by
  rintro s m w h hrun hC hfb rfl
  obtain ⟨c, -⟩ := h.of_running hrun
  obtain ⟨he, hel, hlp⟩ := offsets_of_wf c.cfgWf
  have hticks := h.ticks_of_period hrun hC (memRead_of_lt hfb c.pos) le_rfl
  rw [playedTicks_late _ (by omega) (by omega) (by omega)] at hticks
  obtain ⟨t, ht, hkeep, hcnt⟩ := h.ticks_keepsPlaying hrun s.cfg.p
  obtain ⟨h1, h2, h3, h4, h5, h6, h7, h8, h9⟩ := configRegs_eq_iff.mp hkeep.configRegs
  refine ⟨t, (runPeriods_one s).trans ht, ?_, ?_, ?_, hkeep.fb, hkeep.fault, h1, h2, h3, h4, h5, h6, h7, h8, h9,
    hkeep.running⟩
  · cases ht.symm.trans hticks
    rfl
  · cases ht.symm.trans hticks
    exact toNat_advancePos (s := portWrite _ (portWrite s.setW s)) c.pos
  · rw [hcnt, hC, Nat.zero_add, Nat.mod_self]

/-- Whole bit periods from the beginning of one: each consumes one word, with the wrap at FBLEN. -/
theorem Inv.runPeriods_keepsPlaying {s : State} (h : Inv s) (hrun : s.state = .running) (hC : s.cntC = 0) (k : Nat) :
    ∃ t, runPeriods k s = .next t ∧ KeepsPlaying s t ∧ t.cntC = 0 ∧ t.pos.toNat = (s.pos.toNat + k) % s.fbLen.toNat := by
  induction k with
  | zero =>
    obtain ⟨c, -⟩ := h.of_running hrun
    refine ⟨s, ?_, .refl h hrun, hC, (Nat.mod_eq_of_lt c.pos).symm⟩
    rw [runPeriods, Nat.zero_mul, ticks]
  | succ k ih =>
    obtain ⟨u, hu, hkeep, hcnt, hpos⟩ := ih
    obtain ⟨c, -⟩ := hkeep.inv.of_running hkeep.running
    obtain ⟨m, hfb, -⟩ := c.buffer
    obtain ⟨t, ht, -, hpos', hcnt', -⟩ := bitPeriodMakesThreePortWrites u m _ hkeep.inv hkeep.running hcnt hfb rfl
    have hcfg : u.cfg = s.cfg := congrArg ConfigRegs.cfg hkeep.configRegs
    have hlen : u.fbLen = s.fbLen := congrArg ConfigRegs.fbLen hkeep.configRegs
    have hticks : ticks s.cfg.p u = .next t := by rw [← hcfg, ← runPeriods_one, ht]
    obtain ⟨t', ht', hkeep', -⟩ := hkeep.inv.ticks_keepsPlaying hkeep.running s.cfg.p
    cases ht'.symm.trans hticks
    refine ⟨t, ?_, hkeep.trans hkeep', hcnt', ?_⟩
    · rw [runPeriods, Nat.succ_mul, ticks_add]
      rw [runPeriods] at hu
      rw [hu, andThen_next, hticks]
    · rw [hpos', hlen, hpos, Nat.mod_add_mod, Nat.add_assoc]

/-- Settles O34: the periods are counted from the start sequence, where POS is 0. -/
theorem posCountsBitPeriods : Obligations.PosCountsBitPeriods := by
  intro k s h hs
  obtain ⟨t, ht, -, -, hpos⟩ := (inv_start_of_stopped h hs).runPeriods_keepsPlaying rfl rfl k
  refine ⟨_, t, exec_start_of_stopped hs, ht, ?_⟩
  rw [hpos]
  show (0 + k) % s.fbLen.toNat = k % s.fbLen.toNat
  rw [Nat.zero_add]

/-- Settles O54: the buffer is kept through the k periods, and the next one plays one of its words, all of them ZERO. -/
theorem freshBufferPlaysOnes : Obligations.FreshBufferPlaysOnes := by
  intro k s m h hrun hC hfb hzero
  obtain ⟨t, ht, hkeep, hcnt, -⟩ := h.runPeriods_keepsPlaying hrun hC k
  obtain ⟨-, -, -, hset, hclr, -, -, hlen, hcfg⟩ := configRegs_eq_iff.mp hkeep.configRegs
  obtain ⟨c, -⟩ := hkeep.inv.of_running hkeep.running
  have hword : 0 = m.readWord (wordStride t.cfg) t.pos.toNat := by
    rw [hcfg, hzero _ (hlen ▸ c.pos)]
  obtain ⟨u, hu, htrace, -⟩ :=
    bitPeriodMakesThreePortWrites t m 0 hkeep.inv hkeep.running hcnt (hkeep.fb.trans hfb) hword
  refine ⟨t, u, ht, hu, ?_⟩
  rw [htrace, hset, hclr]
  rfl

/-! ### The machine left alone (R153) -/

/-- With an empty schedule a running block makes a write still owed, or ticks, and stays a running block left alone. -/
theorem Inv.step_of_empty {s : State} (h : Inv s) (hrun : s.state = .running) (hin : s.inbox = []) :
    ∃ t, step s = .next t ∧ Inv t ∧ t.state = .running ∧ t.inbox = [] ∧ t.fault = s.fault := by
  by_cases hp : s.pendingWrites = []
  · obtain ⟨t, ht, hkeep, -⟩ := h.tick_keepsPlaying hrun
    exact ⟨t, (step_empty hin hp).trans ht, hkeep.inv, hkeep.running, hkeep.inbox.trans hin, hkeep.fault⟩
  · obtain ⟨t, ht, hinv⟩ := h.drainWrite_completes
    refine ⟨t, (step_empty_pending hin hp).trans ht, hinv, ?_⟩
    rw [drainWrite_frame ht]
    exact ⟨hrun, hin, rfl⟩

/-- Settles O45, by induction on the number of steps. -/
theorem runningBlockNeverStops : Obligations.RunningBlockNeverStops := by
  intro n
  induction n with
  | zero => exact fun s _ hrun _ => ⟨s, rfl, hrun, rfl⟩
  | succ n ih =>
    intro s h hrun hin
    obtain ⟨u, hu, hinv, hrun', hin', hfault⟩ := h.step_of_empty hrun hin
    obtain ⟨t, ht, hrunt, hfaultt⟩ := ih u hinv hrun' hin'
    exact ⟨t, by rw [steps, hu, andThen_next, ht], hrunt, hfaultt.trans hfault⟩

end Sys2Proof.Machine
end

section
/-! Painting (`30_encoding.md` R108): ENCRGB of one LED after another, by induction on the number of LEDs painted, each by O12's
rule for one block. The statement O55. -/

namespace Sys2Proof.Machine

theorem runOps_append (is js : List Instr) (s : State) : runOps (is ++ js) s = andThen (runOps is s) (runOps js) := by
  induction is generalizing s with
  | nil => rfl
  | cons i is ih =>
    rw [List.cons_append, runOps, runOps, andThen_assoc]
    congr 1
    exact funext ih

theorem runOps_singleton (i : Instr) (s : State) : runOps [i] s = exec i s := by
  rw [runOps]
  cases exec i s <;> rfl

theorem paintAll_succ (n : Nat) (color : Nat → Color) : paintAll (n + 1) color = paintAll n color ++ [paint n (color n)] := by
  rw [paintAll, List.range_succ, List.map_append]
  rfl

/-- LED `i` shows the colour `c`: its 24 words are those of R102 and R123. -/
def ShowsColor (s : State) (m : Memory) (i : Nat) (c : Color) : Prop :=
  ∀ k < 8,
    m.readWord (wordStride s.cfg) (wordIndex i 0 k) = (if (c.g >>> 4).getLsbD k then 0 else s.mark) ∧
    m.readWord (wordStride s.cfg) (wordIndex i 1 k) = (if (c.r >>> 4).getLsbD k then 0 else s.mark) ∧
    m.readWord (wordStride s.cfg) (wordIndex i 2 k) = (if (c.b >>> 4).getLsbD k then 0 else s.mark)

/-- A LED goes on showing its colour where the bytes below a later LED's block are kept. -/
theorem ShowsColor.of_bytes {s : State} {m m' : Memory} {i n : Nat} {c : Color} (h : ShowsColor s m i c) (hi : i < n)
    (hcfg : s.cfg.wf = true) (hbytes : ∀ a < wordAddress (wordStride s.cfg) (24 * n), m'.readByte a = m.readByte a) :
    ShowsColor s m' i c := by
  have hs := wordStride_eq_one_or_two hcfg
  have hword : ∀ j, j < 24 * n → m'.readWord (wordStride s.cfg) j = m.readWord (wordStride s.cfg) j := by
    intro j hj
    apply readWord_congr hs
    exact fun a _ hhi => hbytes a (hhi.trans_le (wordAddress_mono hs hj))
  intro k hk
  have hindex : ∀ ch < 3, wordIndex i ch k < 24 * n := by
    intro ch hch
    unfold wordIndex
    omega
  rw [hword _ (hindex 0 (by decide)), hword _ (hindex 1 (by decide)), hword _ (hindex 2 (by decide))]
  exact h k hk

/-- The first `n` LEDs painted: from one LED on, the result is that of an ENCRGB. -/
theorem runOps_paintAll {s : State} (c : Configured s) (hs : s.state = .running ∨ s.state = .stopped) (color : Nat → Color)
    {n : Nat} (hn : n ≤ s.ledCount.toNat) :
    ∃ m r, runOps (paintAll n color) s = .next { s with fb := some m, result := r } ∧ (0 < n → r = .none) ∧
      ∀ i < n, ShowsColor s m i (color i) := by
  induction n with
  | zero =>
    obtain ⟨m, hfb, -⟩ := c.buffer
    refine ⟨m, s.result, ?_, nofun, nofun⟩
    rw [← hfb]
    rfl
  | succ n ih =>
    obtain ⟨m, r, hrun, -, hshown⟩ := ih (by omega)
    have hcount := s.ledCount.isLt
    have hnat : (BitVec.ofNat 16 n).toNat = n := Nat.mod_eq_of_lt (by omega)
    obtain ⟨m', hexec, hwords, hbytes⟩ := encrgbWritesBlock { s with fb := some m, result := r } m (BitVec.ofNat 16 n)
      (color n).r (color n).g (color n).b hs c.cfgWf rfl (by rw [hnat]; exact hn) c.fbLen c.markFits
    rw [hnat] at hwords hbytes
    refine ⟨m', .none, ?_, fun _ => rfl, ?_⟩
    · rw [paintAll_succ, runOps_append, hrun, andThen_next, runOps_singleton]
      exact hexec
    · intro i hi
      rcases Nat.lt_succ_iff_lt_or_eq.mp hi with hlt | rfl
      · exact (hshown i hlt).of_bytes hlt c.cfgWf fun a ha => hbytes a (.inl ha)
      · exact hwords

theorem runOps_paintAll_ledCount {s : State} (c : Configured s) (hs : s.state = .running ∨ s.state = .stopped)
    (color : Nat → Color) :
    ∃ m, runOps (paintAll s.ledCount.toNat color) s = .next { s with fb := some m, result := .none } ∧
      ∀ i < s.ledCount.toNat, ShowsColor s m i (color i) := by
  obtain ⟨m, r, hrun, hnone, hshown⟩ := runOps_paintAll c hs color le_rfl
  obtain rfl := hnone c.ledCountPos
  exact ⟨m, hrun, hshown⟩

/-- A LED that shows black has MARK in each of its words. -/
theorem ShowsColor.black {s : State} {m : Memory} {i : Nat} (h : ShowsColor s m i { r := 0, g := 0, b := 0 }) {ch k : Nat}
    (hch : ch < 3) (hk : k < 8) : m.readWord (wordStride s.cfg) (wordIndex i ch k) = s.mark := by
  have hbit : ((0 : Byte) >>> 4).getLsbD k = false := by simp
  obtain ⟨hgreen, hred, hblue⟩ := h k hk
  rw [hbit] at hgreen hred hblue
  have hcase : ch = 0 ∨ ch = 1 ∨ ch = 2 := by omega
  rcases hcase with rfl | rfl | rfl
  · exact hgreen
  · exact hred
  · exact hblue

/-- Settles O55: all LEDs painted; and painted black, every index being that of a bit of a channel of a LED. -/
theorem paintingPaintsEveryLed : Obligations.PaintingPaintsEveryLed := by
  intro s color h hs
  have c := h.configured (configured_of_running_or_stopped hs)
  refine ⟨runOps_paintAll_ledCount c hs color, ?_⟩
  obtain ⟨m, hrun, hshown⟩ := runOps_paintAll_ledCount c hs fun _ => { r := 0, g := 0, b := 0 }
  refine ⟨m, hrun, ?_⟩
  intro j hj
  rw [c.fbLen] at hj
  have hled : ledOfIndex j < s.ledCount.toNat := by unfold ledOfIndex; omega
  have hchannel : channelOfIndex j < 3 := by unfold channelOfIndex; omega
  have hbit : bitOfIndex j < 8 := by unfold bitOfIndex; omega
  rw [← wordIndex_of_index j]
  exact (hshown _ hled).black hchannel hbit

end Sys2Proof.Machine
end
